-- ==== Sys2Proof/Word.lean ====
section
/-! DEFINITION. The word types of the block: bytes, 16-byte windows and the 13 checksummed bytes (00_scope.md R14, R15). -/

namespace Sys2Proof

/-- A byte, 8 bits, unsigned (R14). -/
abbrev Byte := BitVec 8

/-- A frame or window: 16 bytes `w[0..15]`, `w[0]` the first byte on the wire (R8, R15). -/
abbrev Frame := Vector Byte 16

/-- The 13 bytes `w[1..13]` a checksum function is applied to (R11, R107). -/
abbrev Body := Vector Byte 13

end Sys2Proof
end

