-- ==== Sys2Proof/Config.lean ====
section
/-! DEFINITION. What an instance fixes (the parameters of 00_scope.md R7 to R13), the sampled input ports (R21 to R24), and the free values: constants without a body, of which nothing can be proved. -/

namespace Sys2Proof

/-- `MARKER`, the first byte of every frame (R7). -/
def marker : Byte := 0x05#8

/-- `FRAME_LEN`, the length of every frame in bytes (R8). -/
def frameLen : Nat := 16

/-- `CMD_W`, 'W', the only command the source defines; the validator does not require it (R13, R104). -/
def cmdW : Byte := 0x57#8

/-- `HEX_CASE`, the one letter case of the hex digits A to F (R12). -/
inductive HexCase where
  | upper
  | lower
  deriving DecidableEq, Repr

/-- All the validator and the encoder read of the configuration (R118). -/
structure Codec where
  /-- `CHECKSUM_FN`: any total function of the 13 bytes (R11, R109 (a) and (b)). -/
  checksumFn : Body → Byte
  /-- `HEX_CASE` (R12). -/
  hexCase : HexCase

/-- The parameters fixed when the block is instantiated (R9 to R12, R45, R224): arguments of the step,
held by no state. A capacity below 16 and a counter width of 0 are not allowed and cannot be written
(R9, R224, U3, U4). -/
structure Params extends Codec where
  /-- `BUF_CAP`, the capacity of the buffer in bytes (R9). -/
  bufCap : { n : Nat // 16 ≤ n }
  /-- `CNT_W`, the width of every counter in bits (R10). -/
  cntW : { n : Nat // 1 ≤ n }

/-- The input ports as sampled at one rising edge (R21 to R24, R140). -/
structure Pins where
  /-- `rst`, synchronous, active high (R21, R220). -/
  rst : Bool
  /-- `in_valid` (R22). -/
  inValid : Bool
  /-- `in_data` (R22). -/
  inData : Byte
  /-- `out_ready` (R23). -/
  outReady : Bool
  /-- `shutdown` (R24). -/
  shutdown : Bool
  deriving DecidableEq, Repr, Inhabited

/-- The inputs of the cycle with the given index, where no delivery schedule lists them: the outside
agents may do anything (R210). FREE VALUE, DESIGN CHOICE, safe: notes/assumptions/4.md. -/
opaque Config.freePins : Nat → Pins

/-- The digit value of a byte that is no digit, which R71 does not define and no rule reads.
FREE VALUE, DESIGN CHOICE, safe: notes/assumptions/14.md. -/
opaque Config.freeDigit : Byte → Nat

end Sys2Proof
end

