-- ==== Sys2Proof/Machine/Operands.lean ====
section
/-! DEFINITION. Operand forms: character classes, digit values, fields of a window, their byte spellings, and the packing of a window into 128 bits (20_memory.md R54 to R56, 30_encoding.md R71 to R77). -/

namespace Sys2Proof.Machine

/-- The class DEC: '0' to '9' (R71; the ASCII codes are PRESUMED: notes/assumptions/19.md). -/
def isDec (b : Byte) : Bool := 0x30#8 ≤ b && b ≤ 0x39#8

/-- 'A' to 'F', the letters of HEX_UPPER (R71). -/
def isUpperLetter (b : Byte) : Bool := 0x41#8 ≤ b && b ≤ 0x46#8

/-- 'a' to 'f', the letters of HEX_LOWER (R71). -/
def isLowerLetter (b : Byte) : Bool := 0x61#8 ≤ b && b ≤ 0x66#8

/-- The class HEX of the configured letter case (R71). -/
def isHex (hc : HexCase) (b : Byte) : Bool :=
  isDec b ||
    match hc with
    | .upper => isUpperLetter b
    | .lower => isLowerLetter b

/-- The digit value `d` (R71), with a free value for a byte that is no digit (notes/assumptions/14.md). -/
def digit (b : Byte) : Nat :=
  if isDec b then b.toNat - 0x30
  else if isUpperLetter b then b.toNat - 0x41 + 10
  else if isLowerLetter b then b.toNat - 0x61 + 10
  else Config.freeDigit b

/-- The value of a four-digit field in radix r, most significant digit first (R56). -/
def digits4 (r : Nat) (a b c d : Byte) : Nat :=
  digit a * r ^ 3 + digit b * r ^ 2 + digit c * r + digit d

/-- `Station(w)` (R73, R112). -/
def station (w : Frame) : BitVec 14 := BitVec.ofNat 14 (digits4 10 w[1] w[2] w[3] w[4])

/-- `Command(w)` (R74, R113). -/
def command (w : Frame) : Byte := w[5]

/-- `DataNumber(w)` (R75, R114). -/
def dataNumber (w : Frame) : BitVec 14 := BitVec.ofNat 14 (digits4 10 w[6] w[7] w[8] w[9])

/-- `DataValue(w)` (R76, R115). -/
def dataValue (w : Frame) : BitVec 16 := BitVec.ofNat 16 (digits4 16 w[10] w[11] w[12] w[13])

/-- `ChecksumField(w)`, high nibble first (R77, R116). -/
def checksumField (w : Frame) : BitVec 8 := BitVec.ofNat 8 (16 * digit w[14] + digit w[15])

/-- The checksummed bytes `w[1..13]` (R107). -/
def body (w : Frame) : Body :=
  #v[w[1], w[2], w[3], w[4], w[5], w[6], w[7], w[8], w[9], w[10], w[11], w[12], w[13]]

/-- The decoded fields of a frame, with the widths of the ports of R23. -/
structure Fields where
  station : BitVec 14
  command : Byte
  dataNumber : BitVec 14
  dataValue : BitVec 16
  checksum : BitVec 8
  deriving DecidableEq, Repr

/-- The five fields of a window (R39, R100). -/
def fieldsOf (w : Frame) : Fields :=
  { station := station w, command := command w, dataNumber := dataNumber w,
    dataValue := dataValue w, checksum := checksumField w }

/-- The digit of weight 10^k of n, as its DEC byte (R121). -/
def decDigit (n k : Nat) : Byte := BitVec.ofNat 8 (0x30 + n / 10 ^ k % 10)

/-- `Dec4(n)`: four DEC bytes, most significant first, leading zeros kept (R121). -/
def dec4 (n : Nat) : Vector Byte 4 := #v[decDigit n 3, decDigit n 2, decDigit n 1, decDigit n 0]

/-- The HEX byte of a nibble in the given letter case (R122). -/
def hexDigit (hc : HexCase) (x : BitVec 4) : Byte :=
  if x.toNat ≤ 9 then BitVec.ofNat 8 (0x30 + x.toNat)
  else
    match hc with
    | .upper => BitVec.ofNat 8 (0x41 + x.toNat - 10)
    | .lower => BitVec.ofNat 8 (0x61 + x.toNat - 10)

/-- `Hex4(v)`: four HEX bytes, most significant nibble first (R122). -/
def hex4 (hc : HexCase) (v : BitVec 16) : Vector Byte 4 :=
  #v[hexDigit hc (v.extractLsb' 12 4), hexDigit hc (v.extractLsb' 8 4),
     hexDigit hc (v.extractLsb' 4 4), hexDigit hc (v.extractLsb' 0 4)]

/-- `Hex2(v)`: two HEX bytes, most significant nibble first (R122). -/
def hex2 (hc : HexCase) (v : BitVec 8) : Vector Byte 2 :=
  #v[hexDigit hc (v.extractLsb' 4 4), hexDigit hc (v.extractLsb' 0 4)]

/-- `BufRead(0, 16)`: the window at the head of a byte sequence, where 16 bytes are there (R53, R19). -/
def window? (l : List Byte) : Option Frame :=
  if h : 16 ≤ l.length then
    some ⟨(l.take 16).toArray, by simp only [List.size_toArray, List.length_take]; omega⟩
  else none

/-- Packing into a 128-bit port: byte k at bits 127-8k to 120-8k (R55). -/
def pack (w : Frame) : BitVec 128 :=
  BitVec.ofNat 128 (w.toList.foldl (fun n b => n * 256 + b.toNat) 0)

/-- The window a 128-bit port carries: byte k is bits 127-8k to 120-8k (R55). -/
def unpack (v : BitVec 128) : Frame := Vector.ofFn fun k : Fin 16 => v.extractLsb' (120 - 8 * k.val) 8

/-- `MUT(F, k, b)`: frame F with byte k replaced by b (R85, R86). -/
def mutate (f : Frame) (k : Fin 16) (b : Byte) : Frame := f.set k.val b

end Sys2Proof.Machine
end

