-- ==== Sys2Proof/Machine/Validator.lean ====
section
/-! DEFINITION. The checksum validator and the reference encoder (40_validator.md R100 to R124): pure functions of a window, `CHECKSUM_FN` and `HEX_CASE`. -/

namespace Sys2Proof.Machine

/-- `SUM8`: the sum of the 13 bytes as unsigned numbers, modulo 256 (R108). -/
def sum8 (b : Body) : Byte := BitVec.ofNat 8 (b.toList.map BitVec.toNat).sum

/-- The default codec: SUM8 and UPPER (R11, R12). -/
def defaultCodec : Codec := { checksumFn := sum8, hexCase := .upper }

/-- The default parameters (R9 to R12). -/
def defaultParams : Params := { toCodec := defaultCodec, bufCap := ⟨32, by decide⟩, cntW := ⟨32, by decide⟩ }

/-- The result codes of `val_result`; code 3 is never produced (R190). -/
inductive Result where
  | ok
  | malformed
  | checksumMismatch
  deriving DecidableEq, Repr

/-- The 2-bit code of a result (R190). -/
def resultCode : Result → BitVec 2
  | .ok => 0#2
  | .malformed => 1#2
  | .checksumMismatch => 2#2

/-- What Validate answers: the fields are there only when the result is OK (R100, R117). -/
inductive Verdict where
  | ok (f : Fields)
  | malformed
  | checksumMismatch
  deriving DecidableEq, Repr

/-- The result of a verdict (R100). -/
def resultOf : Verdict → Result
  | .ok _ => .ok
  | .malformed => .malformed
  | .checksumMismatch => .checksumMismatch

/-- Marker check (R101). -/
def markerOk (w : Frame) : Bool := w[0] == marker

/-- Station character check (R102). -/
def stationOk (w : Frame) : Bool := isDec w[1] && isDec w[2] && isDec w[3] && isDec w[4]

/-- Data-number character check (R103). -/
def dataNumberOk (w : Frame) : Bool := isDec w[6] && isDec w[7] && isDec w[8] && isDec w[9]

/-- The command byte is not checked (R104). -/
def commandOk (_ : Frame) : Bool := true

/-- Data-value character check (R105). -/
def dataValueOk (hc : HexCase) (w : Frame) : Bool :=
  isHex hc w[10] && isHex hc w[11] && isHex hc w[12] && isHex hc w[13]

/-- Checksum character check (R106). -/
def checksumCharsOk (hc : HexCase) (w : Frame) : Bool := isHex hc w[14] && isHex hc w[15]

/-- Checksum recomputation and comparison over bytes 1 to 13 (R107). -/
def checksumOk (c : Codec) (w : Frame) : Bool := checksumField w == c.checksumFn (body w)

/-- Every marker and character check passes (R101 to R106): the window is structurally valid (R110). -/
def structureOk (hc : HexCase) (w : Frame) : Bool :=
  markerOk w && stationOk w && commandOk w && dataNumberOk w && dataValueOk hc w && checksumCharsOk hc w

/-- `Validate` (R111): MALFORMED before CHECKSUM_MISMATCH (R110), then the fields. -/
def validate (c : Codec) (w : Frame) : Verdict :=
  if structureOk c.hexCase w then
    if checksumOk c w then .ok (fieldsOf w) else .checksumMismatch
  else .malformed

/-- The ports of the validator sub-block for a packed window: `val_result`, and the fields only while it
is 0 (R40, R117). -/
def validatorPorts (c : Codec) (valWin : BitVec 128) : BitVec 2 × Option Fields :=
  match validate c (unpack valWin) with
  | .ok f => (0#2, some f)
  | .malformed => (1#2, none)
  | .checksumMismatch => (2#2, none)

/-- Bytes 1 to 13 of an encoding (R120). -/
def encodeBody (hc : HexCase) (st : Nat) (cmd : Byte) (dn : Nat) (dv : BitVec 16) : Body :=
  #v[(dec4 st)[0], (dec4 st)[1], (dec4 st)[2], (dec4 st)[3], cmd,
     (dec4 dn)[0], (dec4 dn)[1], (dec4 dn)[2], (dec4 dn)[3],
     (hex4 hc dv)[0], (hex4 hc dv)[1], (hex4 hc dv)[2], (hex4 hc dv)[3]]

/-- A frame from its bytes 1 to 13 and its checksum value (R120). -/
def assemble (hc : HexCase) (b : Body) (ck : Byte) : Frame :=
  #v[marker, b[0], b[1], b[2], b[3], b[4], b[5], b[6], b[7], b[8], b[9], b[10], b[11], b[12],
     (hex2 hc ck)[0], (hex2 hc ck)[1]]

/-- `Encode(st, cmd, dn, dv)` (R120): none where station or data number is above 9999, which is refused
with no truncation and no wrap (D27, U12). -/
def encodeFrame (c : Codec) (st : Nat) (cmd : Byte) (dn : Nat) (dv : BitVec 16) : Option Frame :=
  if st ≤ 9999 ∧ dn ≤ 9999 then
    let b := encodeBody c.hexCase st cmd dn dv
    some (assemble c.hexCase b (c.checksumFn b))
  else none

/-- R109 (c), the condition under which one changed byte of `w[1..13]` is always noticed. SUM8 meets it;
of another checksum function it is a hypothesis, never assumed. -/
def SingleByteSensitive (fn : Body → Byte) : Prop :=
  ∀ (b : Body) (k : Fin 13) (x : Byte), x ≠ b[k] → fn (b.set k.val x) ≠ fn b

end Sys2Proof.Machine
end

