-- ==== Sys2Proof/Syntax.lean ====
section
/-! DEFINITION. The instructions: one constructor for each of the 19 rows of spec/opcode_table.json (30_encoding.md R79, R84, R87). FINISH has two rows, hence two constructors. -/

namespace Sys2Proof

/-- The rows of the opcode table. A frame class carries the field values that R82 leaves free (the
checksum field is then fixed); the scan operations and the transfers have no operand fields. -/
inductive Instr where
  /-- W_CURFLOOR: command 0x57, data number 1 (R79, R126). -/
  | wCurfloor (station : BitVec 14) (value : BitVec 16)
  /-- W_DESTFLOOR: command 0x57, data number 2 (R79, R127). -/
  | wDestfloor (station : BitVec 14) (value : BitVec 16)
  /-- W_LOAD: command 0x57, data number 3 (R79, R128). -/
  | wLoad (station : BitVec 14) (value : BitVec 16)
  /-- W_OTHERDN: command 0x57, any other data number (R79, R129). -/
  | wOtherdn (station dataNumber : BitVec 14) (value : BitVec 16)
  /-- OTHERCMD: any command but 0x57, any data number (R79, R104). -/
  | othercmd (station : BitVec 14) (command : Byte) (dataNumber : BitVec 14) (value : BitVec 16)
  /-- NONE, operation map row 1 (R153). -/
  | none
  /-- IDLE, row 2 (R143). -/
  | idle
  /-- FINISH, row 3: the buffer is empty (R152). -/
  | finishEmpty
  /-- DISCARD, row 4 (R144). -/
  | discard
  /-- WAIT, row 5 (R145). -/
  | wait
  /-- FINISH, row 6: a partial window is dropped (R152). -/
  | finishPartial
  /-- HOLD, row 7 (R146). -/
  | hold
  /-- EMIT, row 8 (R147). -/
  | emit
  /-- REJECT_MALFORMED, row 9 (R148). -/
  | rejectMalformed
  /-- REJECT_CHECKSUM, row 10 (R149). -/
  | rejectChecksum
  /-- ACCEPT, the input handshake (R141). -/
  | accept
  /-- FIRE, the output handshake (R150). -/
  | fire
  /-- SHUTDOWN, the start of draining (R151). -/
  | shutdown
  /-- RESET (R220). -/
  | reset
  deriving DecidableEq, Repr

end Sys2Proof
end

