-- ==== Sys2Proof/WellFormed.lean ====
section
/-! DEFINITION. Which instructions have an encoding: the operand ranges of 40_validator.md R120 and the class conditions of 30_encoding.md R79. -/

namespace Sys2Proof

/-- The operands are in the ranges a frame can hold (station and data number at most 9999, R73, R75,
R120), and a W_OTHERDN or OTHERCMD frame is of no other class (R79). -/
def Instr.wellFormed : Instr → Bool
  | .wCurfloor st _ => st.toNat ≤ 9999
  | .wDestfloor st _ => st.toNat ≤ 9999
  | .wLoad st _ => st.toNat ≤ 9999
  | .wOtherdn st dn _ =>
      st.toNat ≤ 9999 && dn.toNat ≤ 9999 && dn != 1#14 && dn != 2#14 && dn != 3#14
  | .othercmd st cmd dn _ => st.toNat ≤ 9999 && cmd != cmdW && dn.toNat ≤ 9999
  | .none => true
  | .idle => true
  | .finishEmpty => true
  | .discard => true
  | .wait => true
  | .finishPartial => true
  | .hold => true
  | .emit => true
  | .rejectMalformed => true
  | .rejectChecksum => true
  | .accept => true
  | .fire => true
  | .shutdown => true
  | .reset => true

end Sys2Proof
end

