-- ==== Sys2Proof/Decode.lean ====
section
/-! DEFINITION. The decoders, total on any word, and the encoder (30_encoding.md R79, R81 to R84, R87; spec/opcode_table.json). A frame is decoded by validation and classification; the operation map and the transfers by mask and match over the selector vectors. -/

namespace Sys2Proof

open Sys2Proof.Machine

/-- A row of the table over an n-bit selector: it applies when `(vec & mask) == match` (R87). -/
structure SelRow (n : Nat) where
  pat : BitVec n
  mask : BitVec n
  instr : Instr
  deriving DecidableEq, Repr

/-- The row applies to the vector (R87). -/
def rowApplies {n : Nat} (v : BitVec n) (r : SelRow n) : Bool := v &&& r.mask == r.pat

/-- The ten scan-operation rows over OPSEL (R84, R87). -/
def opselRows : List (SelRow 8) :=
  [⟨0x80#8, 0xC0#8, .none⟩, ⟨0x20#8, 0xE0#8, .idle⟩, ⟨0x60#8, 0xE0#8, .finishEmpty⟩,
   ⟨0x00#8, 0xA8#8, .discard⟩, ⟨0x08#8, 0xF8#8, .wait⟩, ⟨0x48#8, 0xF8#8, .finishPartial⟩,
   ⟨0x18#8, 0xBC#8, .hold⟩, ⟨0x1C#8, 0xBF#8, .emit⟩, ⟨0x1D#8, 0xBF#8, .rejectMalformed⟩,
   ⟨0x1E#8, 0xBF#8, .rejectChecksum⟩]

/-- The four transfer rows over XSEL (R87). -/
def xselRows : List (SelRow 7) :=
  [⟨0x30#7, 0x70#7, .accept⟩, ⟨0x0C#7, 0x4C#7, .fire⟩, ⟨0x03#7, 0x43#7, .shutdown⟩,
   ⟨0x40#7, 0x40#7, .reset⟩]

/-- The scan operation an OPSEL vector selects; none for a reserved phase or result code (R84, R87). -/
def decodeOpsel (v : BitVec 8) : Option Instr := (opselRows.find? (rowApplies v)).map SelRow.instr

/-- The transfers an XSEL vector selects; several can apply at once (R87, R199). -/
def transfers (v : BitVec 7) : List Instr := (xselRows.filter (rowApplies v)).map SelRow.instr

/-- The class of a validated frame (R79). -/
def classify (f : Fields) : Instr :=
  if f.command = cmdW then
    if f.dataNumber = 1#14 then .wCurfloor f.station f.dataValue
    else if f.dataNumber = 2#14 then .wDestfloor f.station f.dataValue
    else if f.dataNumber = 3#14 then .wLoad f.station f.dataValue
    else .wOtherdn f.station f.dataNumber f.dataValue
  else .othercmd f.station f.command f.dataNumber f.dataValue

/-- Why a word is no instruction. -/
inductive DecodeError where
  /-- Not 16 bytes (R70). -/
  | wrongLength
  /-- A marker or character check fails (R81 (a) to (c)). -/
  | malformed
  /-- The checksum disagrees (R81 (d)). -/
  | checksumMismatch
  /-- No row of the operation map applies (phase 3 or result code 3, R33, R190). -/
  | noScanRow
  /-- No transfer row applies. -/
  | noTransferRow
  /-- More than one transfer row applies: not one instruction but several at once (R87, R199). -/
  | severalTransfers
  deriving DecidableEq, Repr

/-- What a decoder answers: an instruction, or a rejection by name. -/
inductive Decoded where
  | instr (i : Instr)
  | rejected (e : DecodeError)
  deriving DecidableEq, Repr

/-- An instruction word in one of the table's three formats: FRAME16, OPSEL8, XSEL7. -/
inductive CodeWord where
  | frame (w : Frame)
  | opsel (v : BitVec 8)
  | xsel (v : BitVec 7)
  deriving DecidableEq, Repr

/-- The instruction a 16-byte frame is (R79), or why it is illegal (R81). -/
def decodeFrame (c : Codec) (w : Frame) : Decoded :=
  match validate c w with
  | .ok f => .instr (classify f)
  | .malformed => .rejected .malformed
  | .checksumMismatch => .rejected .checksumMismatch

/-- Decoding any word, total, rejecting by name. -/
def decode (c : Codec) : CodeWord → Decoded
  | .frame w => decodeFrame c w
  | .opsel v =>
      match decodeOpsel v with
      | some i => .instr i
      | none => .rejected .noScanRow
  | .xsel v =>
      match transfers v with
      | [] => .rejected .noTransferRow
      | [i] => .instr i
      | _ => .rejected .severalTransfers

/-- Decoding a sequence of bytes as one frame (R70). -/
def decodeBytes (c : Codec) (l : List Byte) : Decoded :=
  if l.length = frameLen then
    match window? l with
    | some w => decodeFrame c w
    | none => .rejected .wrongLength
  else .rejected .wrongLength

/-- The word of an instruction: the frame its fields encode (R82, R120), or its row's `match` value.
None where Encode refuses the operands (R120). -/
def encode (c : Codec) : Instr → Option CodeWord
  | .wCurfloor st v => (encodeFrame c st.toNat cmdW 1 v).map .frame
  | .wDestfloor st v => (encodeFrame c st.toNat cmdW 2 v).map .frame
  | .wLoad st v => (encodeFrame c st.toNat cmdW 3 v).map .frame
  | .wOtherdn st dn v => (encodeFrame c st.toNat cmdW dn.toNat v).map .frame
  | .othercmd st cmd dn v => (encodeFrame c st.toNat cmd dn.toNat v).map .frame
  | .none => some (.opsel 0x80#8)
  | .idle => some (.opsel 0x20#8)
  | .finishEmpty => some (.opsel 0x60#8)
  | .discard => some (.opsel 0x00#8)
  | .wait => some (.opsel 0x08#8)
  | .finishPartial => some (.opsel 0x48#8)
  | .hold => some (.opsel 0x18#8)
  | .emit => some (.opsel 0x1C#8)
  | .rejectMalformed => some (.opsel 0x1D#8)
  | .rejectChecksum => some (.opsel 0x1E#8)
  | .accept => some (.xsel 0x30#7)
  | .fire => some (.xsel 0x0C#7)
  | .shutdown => some (.xsel 0x03#7)
  | .reset => some (.xsel 0x40#7)

/-- The frame-class row of a class over the packed window: match and mask of the table (R83). -/
def frameRow : Instr → Option (BitVec 128 × BitVec 128)
  | .wCurfloor _ _ =>
      some (0x05303030305730303031000000000000#128, 0xFFF0F0F0F0FFFFFFFFFF808080808080#128)
  | .wDestfloor _ _ =>
      some (0x05303030305730303032000000000000#128, 0xFFF0F0F0F0FFFFFFFFFF808080808080#128)
  | .wLoad _ _ =>
      some (0x05303030305730303033000000000000#128, 0xFFF0F0F0F0FFFFFFFFFF808080808080#128)
  | .wOtherdn _ _ _ =>
      some (0x05303030305730303030000000000000#128, 0xFFF0F0F0F0FFF0F0F0F0808080808080#128)
  | .othercmd _ _ _ _ =>
      some (0x05303030300030303030000000000000#128, 0xFFF0F0F0F000F0F0F0F0808080808080#128)
  | _ => Option.none

/-- The opcode-table word of the given number of bits, read in the row's format. A word of 8 bits is a
transfer's where it is exactly a transfer row's `match` value (no operation-map row has that value), and
an OPSEL vector otherwise; 7 bits are XSEL. DESIGN CHOICE, safe: notes/assumptions/12.md. -/
def tableWord (nbits w : Nat) : Option CodeWord :=
  if nbits = 128 then some (.frame (unpack (BitVec.ofNat 128 w)))
  else if nbits = 7 then some (.xsel (BitVec.ofNat 7 w))
  else if nbits = 8 then
    if (xselRows.map fun r => r.pat.toNat).contains w then some (.xsel (BitVec.ofNat 7 w))
    else some (.opsel (BitVec.ofNat 8 w))
  else none

/-- The instruction the decoder reads from an opcode-table word, under the default codec. -/
def decodeTableWord (nbits w : Nat) : Option Instr :=
  match tableWord nbits w with
  | none => none
  | some cw =>
      match decode defaultCodec cw with
      | .instr i => some i
      | .rejected _ => none

end Sys2Proof
end

