-- ==== Sys2Proof/Machine/State.lean ====
section
/-! DEFINITION. The state of one instance and its surroundings, the reasons a step can stop, and the reset state (10_state.md R26 to R46). -/

namespace Sys2Proof.Machine

/-- `phase` (R33). -/
inductive Phase where
  /-- 0: accepting bytes and scanning. -/
  | run
  /-- 1: shutdown seen, finishing what is buffered. -/
  | drain
  /-- 2: shutdown complete, idle until reset. -/
  | done
  /-- 3: reserved, never reached (R46). -/
  | reserved
  deriving DecidableEq, Repr

/-- Why a step stops with a fault. The block itself has no fault (R171, R202): every one of these is
unreachable from reset. -/
inductive Fault where
  /-- Raised by the step when `phase` is the reserved code 3 and no reset comes: no row of the operation
  map map applies (R33, R202, U9). Safe: the state is unreachable (notes/assumptions/8.md). -/
  | reservedPhase
  /-- Raised by Pop and BufRead asked for more bytes than are buffered, which R53 forbids; only a scan
  operation or frame executed where the operation map does not select it can do so. Safe
  (notes/assumptions/10.md). -/
  | bufferUnderrun
  deriving DecidableEq, Repr

/-- Why an instruction is refused. -/
inductive Refusal where
  /-- Raised by exec for an instruction that has no meaning yet. Safe. -/
  | notModelled (mnemonic : String)
  /-- Raised by a frame instruction whose station or data number is above 9999: Encode refuses it
  (R120, D27, U12). Safe: no decoded frame has such an operand (notes/assumptions/11.md). -/
  | operandRange
  deriving DecidableEq, Repr

/-- The block's registers (R26 to R36), and the outside agents of R20: what the transport will drive and
has delivered, and what the consumer has taken. The parameters are no state (R45): the step takes them. -/
structure State where
  /-- `buf`, oldest byte first; `buf_cnt` is its length (R26, R43). -/
  buf : List Byte
  /-- `in_cnt`, CNT_W bits (R27). -/
  inCnt : Nat
  /-- `noise_cnt`, CNT_W bits (R28). -/
  noiseCnt : Nat
  /-- `mal_cnt`, CNT_W bits (R29). -/
  malCnt : Nat
  /-- `ck_cnt`, CNT_W bits (R30). -/
  ckCnt : Nat
  /-- `frame_cnt`, CNT_W bits (R31). -/
  frameCnt : Nat
  /-- `phase` (R33). -/
  phase : Phase
  /-- `out_valid` (R34). -/
  outValid : Bool
  /-- `out_raw` (R35). -/
  outRaw : Frame
  /-- `residue_len`, 4 bits (R36). -/
  residueLen : BitVec 4
  /-- The delivery schedule: the inputs of the coming cycles, the next one first (R85).
  notes/assumptions/3.md. -/
  schedule : List Pins
  /-- The stream: every byte accepted since reset, in order (R19). notes/assumptions/6.md. -/
  stream : List Byte
  /-- The frames the consumer has received since reset, oldest first (R150, R161).
  notes/assumptions/6.md. -/
  taken : List Frame
  /-- The model's own: index of the free inputs used past the schedule's end. notes/assumptions/4.md. -/
  cycle : Nat
  deriving DecidableEq, Repr

/-- The machine right after reset: the table of R42, and nothing scheduled. -/
def State.reset : State :=
  { buf := []
    inCnt := 0
    noiseCnt := 0
    malCnt := 0
    ckCnt := 0
    frameCnt := 0
    phase := .run
    outValid := false
    outRaw := Vector.replicate 16 0x00#8
    residueLen := 0#4
    schedule := []
    stream := []
    taken := []
    cycle := 0 }

end Sys2Proof.Machine
end

