-- ==== Sys2Proof/Machine/Flags.lean ====
section
/-! DEFINITION. Everything combinational: the sampled inputs, the flags, the selector vectors and the outputs (10_state.md R25, R32, R37 to R39; 30_encoding.md R87). -/

namespace Sys2Proof.Machine

/-- The inputs of this cycle: the schedule's next entry, or free values past its end (R140, R210). -/
def State.pins (s : State) : Pins :=
  match s.schedule with
  | p :: _ => p
  | [] => Config.freePins s.cycle

/-- `2^CNT_W`, the modulus of every counter (R14, R231). -/
def cntMod (P : Params) : Nat := 2 ^ P.cntW.val

/-- `buf_cnt` (R26). -/
def State.bufCnt (s : State) : Nat := s.buf.length

/-- `head_pos = (in_cnt - buf_cnt) mod 2^CNT_W` (R32). -/
def State.headPos (P : Params) (s : State) : Nat := (((s.inCnt : Int) - s.bufCnt) % (cntMod P : Int)).toNat

/-- `in_ready`, of the start-of-cycle state only (R37). -/
def State.inReady (P : Params) (s : State) : Bool := s.phase == .run && s.bufCnt < P.bufCap.val

/-- `done` (R38). -/
def State.doneFlag (s : State) : Bool := s.phase == .done && !s.outValid

/-- The 2-bit code of a phase (R33). -/
def phaseCode : Phase → BitVec 2
  | .run => 0#2
  | .drain => 1#2
  | .done => 2#2
  | .reserved => 3#2

/-- *Output free*: `out_valid == 0 or out_ready == 1` (R84). -/
def State.outputFree (s : State) : Bool := !s.outValid || s.pins.outReady

/-- The accept bit of the cycle (R141). -/
def State.accepts (P : Params) (s : State) : Bool := s.pins.inValid && s.inReady P

/-- The fire bit of the cycle (R150). -/
def State.fires (s : State) : Bool := s.outValid && s.pins.outReady

/-- The head is the marker: bit M of OPSEL (R87). -/
def State.headIsMarker (s : State) : Bool :=
  match s.buf with
  | [] => false
  | b :: _ => b == marker

/-- Bits 1:0 of OPSEL: the result code of the window, 0 where there is none (R87). -/
def State.windowCode (c : Codec) (s : State) : BitVec 2 :=
  match window? s.buf with
  | some w => resultCode (resultOf (validate c w))
  | none => 0#2

/-- The operation selector OPSEL (R87). -/
def State.opsel (c : Codec) (s : State) : BitVec 8 :=
  phaseCode s.phase ++ BitVec.ofBool (s.bufCnt == 0) ++ BitVec.ofBool (decide (16 ≤ s.bufCnt)) ++
    BitVec.ofBool s.headIsMarker ++ BitVec.ofBool s.outputFree ++ s.windowCode c

/-- The transfer selector XSEL (R87). -/
def State.xsel (P : Params) (s : State) : BitVec 7 :=
  BitVec.ofBool s.pins.rst ++ BitVec.ofBool s.pins.inValid ++ BitVec.ofBool (s.inReady P) ++
    BitVec.ofBool s.outValid ++ BitVec.ofBool s.pins.outReady ++ BitVec.ofBool s.pins.shutdown ++
    BitVec.ofBool (s.phase == .run)

/-- The output ports (R22, R23, R25). `frame` is `out_raw` with its decoded fields; it may be read only
while `out_valid` is 1 (R39, R228), and there is no value otherwise (notes/assumptions/13.md). -/
structure Outputs where
  inReady : Bool
  outValid : Bool
  frame : Option (BitVec 128 × Fields)
  inCnt : Nat
  noiseCnt : Nat
  malCnt : Nat
  ckCnt : Nat
  frameCnt : Nat
  phase : BitVec 2
  residueLen : BitVec 4
  done : Bool
  bufCnt : Nat
  deriving DecidableEq, Repr

/-- The outputs of a state: direct outputs of its registers and flags, with no side effect
(R25, R39, R60, R208). -/
def State.outputs (P : Params) (s : State) : Outputs :=
  { inReady := s.inReady P
    outValid := s.outValid
    frame := if s.outValid then some (pack s.outRaw, fieldsOf s.outRaw) else none
    inCnt := s.inCnt
    noiseCnt := s.noiseCnt
    malCnt := s.malCnt
    ckCnt := s.ckCnt
    frameCnt := s.frameCnt
    phase := phaseCode s.phase
    residueLen := s.residueLen
    done := s.doneFlag
    bufCnt := s.bufCnt }

end Sys2Proof.Machine
end

