-- ==== Sys2Proof/Machine/Ops.lean ====
section
/-! DEFINITION. The named operations over the buffer and the registers (20_memory.md R53, 41_framer.md R141 to R155), the handling of a rejection (60_exceptions.md R197), and the clock. -/

namespace Sys2Proof.Machine

/-- The outcomes of this machine. -/
abbrev Out := Host.Outcome State Fault Refusal

/-- Sequencing: a fault or refusal stops. -/
def andThen (o : Out) (f : State → Out) : Out :=
  match o with
  | .next s => f s
  | .fault r => .fault r
  | .refused r => .refused r

/-- A counter one higher, modulo `2^CNT_W` (R27 to R31, R155; notes/assumptions/15.md). -/
def wrapInc (P : Params) (n : Nat) : Nat := (n + 1) % cntMod P

/-- `Push(b)`: append at the tail (R53). -/
def State.push (s : State) (b : Byte) : State := { s with buf := s.buf ++ [b] }

/-- The buffer without its first n bytes (R53). -/
def State.dropHead (s : State) (n : Nat) : State := { s with buf := s.buf.drop n }

/-- `Pop(n)`, applied only with `n <= buf_cnt` (R53). -/
def pop (n : Nat) (s : State) : Out :=
  if n ≤ s.bufCnt then .next (s.dropHead n) else .fault .bufferUnderrun

/-- `noise_cnt` one higher (R28). -/
def State.countNoise (P : Params) (s : State) : State := { s with noiseCnt := wrapInc P s.noiseCnt }

/-- The two causes for which a window is rejected (R190 to R192). -/
inductive Rejection where
  | malformedFrame
  | checksumMismatch
  deriving DecidableEq, Repr

/-- The one value a rejection records: its counter, one higher (R191, R192). -/
def State.countRejection (P : Params) (s : State) : Rejection → State
  | .malformedFrame => { s with malCnt := wrapInc P s.malCnt }
  | .checksumMismatch => { s with ckCnt := wrapInc P s.ckCnt }

/-- THE BLOCK'S EXCEPTION ENTRY, the handling of a rejected window (R197): pop exactly one byte and count
it. Nothing is saved, no mode changes, control goes nowhere. There is no return operation: the next cycle
scans from the new head (R198). -/
def takeRejection (P : Params) (r : Rejection) (s : State) : Out :=
  andThen (pop 1 s) fun t => .next (t.countRejection P r)

/-- The output register loaded with a frame, and the frame counted (R147). -/
def State.load (P : Params) (s : State) (w : Frame) : State :=
  { s with outRaw := w, outValid := true, frameCnt := wrapInc P s.frameCnt }

/-- Emitting a frame: 16 bytes leave the buffer and the output register takes the frame (R147). -/
def emitFrame (P : Params) (w : Frame) (s : State) : Out :=
  andThen (pop 16 s) fun t => .next (t.load P w)

/-- Emitting the frame that the four field values encode (R82, R120, R147). DEDUCED:
notes/assumptions/11.md. -/
def emitFields (P : Params) (st : Nat) (cmd : Byte) (dn : Nat) (dv : BitVec 16) (s : State) : Out :=
  match encodeFrame P.toCodec st cmd dn dv with
  | some w => emitFrame P w s
  | none => .refused .operandRange

/-- The end of a shutdown: the residue is dropped and its length kept, in 4 bits (R152;
notes/assumptions/15.md). -/
def State.finish (s : State) : State :=
  { s with residueLen := BitVec.ofNat 4 s.bufCnt, buf := [], phase := .done }

/-- A byte accepted: pushed, counted, and part of the stream (R141, R19). -/
def State.acceptByte (P : Params) (s : State) (b : Byte) : State :=
  { s.push b with inCnt := wrapInc P s.inCnt, stream := s.stream ++ [b] }

/-- The frame in the output register delivered to the consumer (R150). `out_raw` keeps its value. -/
def State.deliver (s : State) : State :=
  { s with outValid := false, taken := s.taken ++ [s.outRaw] }

/-- The phase after shutdown is seen (R151). -/
def State.startDrain (s : State) : State := { s with phase := .drain }

/-- Every register at its reset value (R42, R220). The outside agents' coming inputs are
no registers of the block; the stream and the frames taken are counted since reset (R19, R161). -/
def State.resetRegisters (s : State) : State :=
  { State.reset with schedule := s.schedule, cycle := s.cycle }

/-- The clock moves to the next cycle's inputs. -/
def State.tick (s : State) : State := { s with schedule := s.schedule.tail, cycle := s.cycle + 1 }

end Sys2Proof.Machine
end

