-- ==== Sys2Proof/Machine/Frames.lean ====
section
/-! DEFINITION. The meanings of the five frame classes, for any parameters and for the default ones: the block emits every valid frame the same way, whatever its class (30_encoding.md R79, 41_framer.md R147). -/

namespace Sys2Proof.Machine

/-- W_CURFLOOR (R79, R147; read by R126). -/
def wCurfloorWith (P : Params) (st : BitVec 14) (v : BitVec 16) (s : State) : Out :=
  emitFields P st.toNat cmdW 1 v s

/-- W_DESTFLOOR (R79, R147; read by R127). -/
def wDestfloorWith (P : Params) (st : BitVec 14) (v : BitVec 16) (s : State) : Out :=
  emitFields P st.toNat cmdW 2 v s

/-- W_LOAD (R79, R147; read by R128). -/
def wLoadWith (P : Params) (st : BitVec 14) (v : BitVec 16) (s : State) : Out :=
  emitFields P st.toNat cmdW 3 v s

/-- W_OTHERDN: accepted and passed through (R79, R147, R193; read by R129). -/
def wOtherdnWith (P : Params) (st dn : BitVec 14) (v : BitVec 16) (s : State) : Out :=
  emitFields P st.toNat cmdW dn.toNat v s

/-- OTHERCMD: accepted and passed through (R79, R80, R104, R147). -/
def othercmdWith (P : Params) (st : BitVec 14) (cmd : Byte) (dn : BitVec 14) (v : BitVec 16) (s : State) : Out :=
  emitFields P st.toNat cmd dn.toNat v s

/-- W_CURFLOOR under the default parameters. -/
def execWCurfloor (st : BitVec 14) (v : BitVec 16) (s : State) : Out := wCurfloorWith defaultParams st v s

/-- W_DESTFLOOR under the default parameters. -/
def execWDestfloor (st : BitVec 14) (v : BitVec 16) (s : State) : Out := wDestfloorWith defaultParams st v s

/-- W_LOAD under the default parameters. -/
def execWLoad (st : BitVec 14) (v : BitVec 16) (s : State) : Out := wLoadWith defaultParams st v s

/-- W_OTHERDN under the default parameters. -/
def execWOtherdn (st dn : BitVec 14) (v : BitVec 16) (s : State) : Out := wOtherdnWith defaultParams st dn v s

/-- OTHERCMD under the default parameters. -/
def execOthercmd (st : BitVec 14) (cmd : Byte) (dn : BitVec 14) (v : BitVec 16) (s : State) : Out :=
  othercmdWith defaultParams st cmd dn v s

end Sys2Proof.Machine
end

