-- ==== Sys2Proof/Machine/ScanOps.lean ====
section
/-! DEFINITION. The meanings of the ten rows of the operation map, those that read the parameters for any of them and for the default ones (30_encoding.md R84; 41_framer.md R143 to R149, R152, R153). Each is the effect of the operation where its row selects it; DESIGN CHOICE, safe: executed elsewhere it has the same effect (notes/assumptions/10.md). -/

namespace Sys2Proof.Machine

/-- NONE: no change; FIRE works beside it (R153). -/
def execNone (s : State) : Out := .next s

/-- IDLE: no change (R143). -/
def execIdle (s : State) : Out := .next s

/-- FINISH on an empty buffer (R152, row 3). -/
def execFinishEmpty (s : State) : Out := .next s.finish

/-- DISCARD: one noise byte leaves the head and is counted (R144). -/
def discardWith (P : Params) (s : State) : Out := andThen (pop 1 s) fun t => .next (t.countNoise P)

/-- WAIT: no change (R145). -/
def execWait (s : State) : Out := .next s

/-- FINISH on a partial window (R152, row 6). -/
def execFinishPartial (s : State) : Out := .next s.finish

/-- HOLD: no change (R146). -/
def execHold (s : State) : Out := .next s

/-- EMIT: the window goes whole into the output register (R147). -/
def emitWith (P : Params) (s : State) : Out :=
  match window? s.buf with
  | some w => emitFrame P w s
  | none => .fault .bufferUnderrun

/-- REJECT_MALFORMED (R148). -/
def rejectMalformedWith (P : Params) (s : State) : Out := takeRejection P .malformedFrame s

/-- REJECT_CHECKSUM (R149). -/
def rejectChecksumWith (P : Params) (s : State) : Out := takeRejection P .checksumMismatch s

/-- DISCARD under the default parameters. -/
def execDiscard (s : State) : Out := discardWith defaultParams s

/-- EMIT under the default parameters. -/
def execEmit (s : State) : Out := emitWith defaultParams s

/-- REJECT_MALFORMED under the default parameters. -/
def execRejectMalformed (s : State) : Out := rejectMalformedWith defaultParams s

/-- REJECT_CHECKSUM under the default parameters. -/
def execRejectChecksum (s : State) : Out := rejectChecksumWith defaultParams s

end Sys2Proof.Machine
end

