-- ==== Sys2Proof/Machine/Transfers.lean ====
section
/-! DEFINITION. The meanings of the four transfers, ACCEPT for any parameters and for the default ones (41_framer.md R141, R150, R151; 70_reset_and_hazards.md R220). -/

namespace Sys2Proof.Machine

/-- ACCEPT: the offered byte is pushed and counted when `in_valid` and `in_ready`; a byte offered while
`in_ready` is 0 leaves no trace (R141). -/
def acceptWith (P : Params) (s : State) : Out := .next (if s.accepts P then s.acceptByte P s.pins.inData else s)

/-- FIRE: the pending frame is delivered when `out_valid` and `out_ready`; `out_ready` is ignored while
`out_valid` is 0 (R150, R158). -/
def execFire (s : State) : Out := .next (if s.fires then s.deliver else s)

/-- SHUTDOWN: from RUN, when `shutdown` is 1, to DRAIN; ignored in DRAIN and DONE (R151, R159). -/
def execShutdown (s : State) : Out :=
  .next (if s.phase == .run && s.pins.shutdown then s.startDrain else s)

/-- RESET: every register takes its reset value (R220, R221). -/
def execReset (s : State) : Out := .next s.resetRegisters

/-- ACCEPT under the default parameters. -/
def execAccept (s : State) : Out := acceptWith defaultParams s

end Sys2Proof.Machine
end

