-- ==== Sys2Proof/Machine/Instance.lean ====
section
/-! DEFINITION. The dispatch from an instruction to its meaning under given parameters, one arm per constructor (10_state.md R45). -/

namespace Sys2Proof.Machine

/-- The effect of an instruction in the instance of the block with the given parameters (R45). -/
def execWith (P : Params) (i : Instr) (s : State) : Out :=
  match i with
  | .wCurfloor st v => wCurfloorWith P st v s
  | .wDestfloor st v => wDestfloorWith P st v s
  | .wLoad st v => wLoadWith P st v s
  | .wOtherdn st dn v => wOtherdnWith P st dn v s
  | .othercmd st cmd dn v => othercmdWith P st cmd dn v s
  | .none => execNone s
  | .idle => execIdle s
  | .finishEmpty => execFinishEmpty s
  | .discard => discardWith P s
  | .wait => execWait s
  | .finishPartial => execFinishPartial s
  | .hold => execHold s
  | .emit => emitWith P s
  | .rejectMalformed => rejectMalformedWith P s
  | .rejectChecksum => rejectChecksumWith P s
  | .accept => acceptWith P s
  | .fire => execFire s
  | .shutdown => execShutdown s
  | .reset => execReset s

end Sys2Proof.Machine
end

