-- ==== Sys2Proof/Machine/Cycle.lean ====
section
/-! DEFINITION. One clock cycle under given parameters: which instructions it performs, and performing them (41_framer.md R140, R156; 60_exceptions.md R199; 10_state.md R45). -/

namespace Sys2Proof.Machine

/-- The transfer, where its XSEL row applies (R87). -/
def selected (v : BitVec 7) (i : Instr) : List Instr := if i ∈ transfers v then [i] else []

/-- The instructions of this cycle, all selected from the start-of-cycle state (R140, R199): RESET alone
where `rst` is 1 (R220); else FIRE if it applies, the one scan operation, ACCEPT and SHUTDOWN if they
apply. In this order EMIT's set of `out_valid` wins over FIRE's clear and the pops precede the push
(R150, R154). None in the reserved phase. DESIGN CHOICE, safe: notes/assumptions/9.md. -/
def cycleInstrs (P : Params) (s : State) : Option (List Instr) :=
  if .reset ∈ transfers (s.xsel P) then some [.reset]
  else
    match decodeOpsel (s.opsel P.toCodec) with
    | some op =>
        some (selected (s.xsel P) .fire ++ [op] ++ selected (s.xsel P) .accept ++
          selected (s.xsel P) .shutdown)
    | none => none

/-- Performing instructions one after the other, each by the given dispatch. -/
def runInstrs (ex : Instr → State → Out) : List Instr → State → Out
  | [], s => .next s
  | i :: rest, s => andThen (ex i s) (runInstrs ex rest)

/-- One cycle (R156) by the given dispatch, then the clock moves to the next cycle's inputs. -/
def cycleStep (P : Params) (ex : Instr → State → Out) (s : State) : Out :=
  match cycleInstrs P s with
  | some is => andThen (runInstrs ex is s) fun t => .next t.tick
  | none => .fault .reservedPhase

/-- THE STEP RELATION OF THE BLOCK: one clock cycle of the instance with the given parameters, any
`BUF_CAP`, `CNT_W`, `CHECKSUM_FN` and `HEX_CASE` (R45, R156, U1 to U4). -/
def stepWith (P : Params) (s : State) : Out := cycleStep P (execWith P) s

end Sys2Proof.Machine
end

