-- ==== Sys2Proof/Machine/Dispatch.lean ====
section
/-! DEFINITION. The dispatch from an instruction to its meaning under the default parameters, one arm per constructor. -/

namespace Sys2Proof.Machine

def exec (i : Instr) (s : State) : Host.Outcome State Fault Refusal :=
  match i with
  | .wCurfloor st v => Sys2Proof.Machine.execWCurfloor st v s
  | .wDestfloor st v => Sys2Proof.Machine.execWDestfloor st v s
  | .wLoad st v => Sys2Proof.Machine.execWLoad st v s
  | .wOtherdn st dn v => Sys2Proof.Machine.execWOtherdn st dn v s
  | .othercmd st cmd dn v => Sys2Proof.Machine.execOthercmd st cmd dn v s
  | .none => Sys2Proof.Machine.execNone s
  | .idle => Sys2Proof.Machine.execIdle s
  | .finishEmpty => Sys2Proof.Machine.execFinishEmpty s
  | .discard => Sys2Proof.Machine.execDiscard s
  | .wait => Sys2Proof.Machine.execWait s
  | .finishPartial => Sys2Proof.Machine.execFinishPartial s
  | .hold => Sys2Proof.Machine.execHold s
  | .emit => Sys2Proof.Machine.execEmit s
  | .rejectMalformed => Sys2Proof.Machine.execRejectMalformed s
  | .rejectChecksum => Sys2Proof.Machine.execRejectChecksum s
  | .accept => Sys2Proof.Machine.execAccept s
  | .fire => Sys2Proof.Machine.execFire s
  | .shutdown => Sys2Proof.Machine.execShutdown s
  | .reset => Sys2Proof.Machine.execReset s

end Sys2Proof.Machine
end

