-- ==== Sys2Proof/Machine/Place.lean ====
section
/-! DEFINITION. Placing an opcode-table word where the next step selects it: the block has no program memory, so its inputs, buffer, phase and output register are set to the conditions the word stands for (30_encoding.md R83, R87). -/

namespace Sys2Proof.Machine

/-- Inputs at rest: nothing offered, taken, shut down or reset. -/
def quietPins : Pins :=
  { rst := false, inValid := false, inData := 0x00#8, outReady := false, shutdown := false }

/-- A phase from its code (R33). -/
def phaseOf (v : BitVec 2) : Phase :=
  if v = 0#2 then .run else if v = 1#2 then .drain else if v = 2#2 then .done else .reserved

/-- The frame ENQW(1, 1, 0x0003) under a codec (R85). -/
def sampleFrame (c : Codec) : Frame :=
  let b := encodeBody c.hexCase 1 cmdW 1 0x0003#16
  assemble c.hexCase b (c.checksumFn b)

/-- The same frame with a wrong checksum value. -/
def sampleBadChecksum (c : Codec) : Frame :=
  let b := encodeBody c.hexCase 1 cmdW 1 0x0003#16
  assemble c.hexCase b (c.checksumFn b + 1#8)

/-- A window of the marker and 15 bytes that are no digits. -/
def sampleMalformed : Frame := #v[marker, 0, 0, 0, 0, 0, 0, 0, 0, 0, 0, 0, 0, 0, 0, 0]

/-- The output register occupied by a valid frame, unless it already is. -/
def State.occupyOutput (s : State) : State :=
  if s.outValid then s else { s with outValid := true, outRaw := sampleFrame defaultCodec }

/-- The next cycle's inputs. -/
def State.schedulePins (s : State) (p : Pins) : State := { s with schedule := p :: s.schedule.tail }

/-- The phase as it is where it scans, RUN otherwise. -/
def State.scanningPhase (s : State) : Phase := if s.phase == .drain then .drain else .run

/-- The buffer that an OPSEL vector's bits Z, F, M and result describe (R87). -/
def opselBuffer (c : Codec) (v : BitVec 8) : List Byte :=
  if v.getLsbD 5 then []
  else
    let head := if v.getLsbD 3 then marker else 0x00#8
    if v.getLsbD 4 then
      if v.getLsbD 3 then
        if v.extractLsb' 0 2 = 0#2 then (sampleFrame c).toList
        else if v.extractLsb' 0 2 = 1#2 then sampleMalformed.toList
        else (sampleBadChecksum c).toList
      else List.replicate 16 head
    else [head]

/-- A window at the head, the output free, inputs at rest. -/
def State.placeFrame (s : State) (w : Frame) : State :=
  { s with buf := w.toList, phase := s.scanningPhase, outValid := false }.schedulePins quietPins

/-- The phase, buffer and output register an OPSEL vector describes, inputs at rest. -/
def State.placeOpsel (s : State) (v : BitVec 8) : State :=
  let t := { s with phase := phaseOf (v.extractLsb' 6 2), buf := opselBuffer defaultCodec v }
  (if v.getLsbD 2 then { t with outValid := false } else t.occupyOutput).schedulePins quietPins

/-- The inputs of an XSEL vector, an empty buffer in RUN where it asks for `in_ready`, RUN where it asks
for it, and the output register occupied or not; the offered byte is the marker. -/
def State.placeXsel (s : State) (v : BitVec 7) : State :=
  let p : Pins :=
    { rst := v.getLsbD 6, inValid := v.getLsbD 5, inData := marker, outReady := v.getLsbD 2,
      shutdown := v.getLsbD 1 }
  let t := if v.getLsbD 4 then { s with phase := .run, buf := [] } else s
  let u := if v.getLsbD 0 then { t with phase := .run } else t
  (if v.getLsbD 3 then u.occupyOutput else { u with outValid := false }).schedulePins p

/-- The state in which the next step selects the given opcode-table word. -/
def placeWord (s : State) (nbits w : Nat) : State :=
  match tableWord nbits w with
  | some (.frame f) => s.placeFrame f
  | some (.opsel v) => s.placeOpsel v
  | some (.xsel v) => s.placeXsel v
  | none => s

end Sys2Proof.Machine
end

