-- ==== Sys2Proof/Machine/Step.lean ====
section
/-! DEFINITION. The host's step: one clock cycle of the instance with the default parameters (41_framer.md R140, R156; 00_scope.md R9 to R12). -/

namespace Sys2Proof.Machine

/-- One clock cycle under the default parameters. The host's step takes a state only, so one instance is
fixed here; `stepWith` is the step of every instance. DESIGN CHOICE, safe: notes/assumptions/1.md. -/
def step : State → Host.Outcome State Fault Refusal := fun s => cycleStep defaultParams exec s

/-- The state with an opcode-table word placed so that the very next step runs it. -/
def State.withFetchWord (s : State) (nbits w : Nat) : State := placeWord s nbits w

end Sys2Proof.Machine
end

