-- ==== Sys2Proof/Machine/Interp.lean ====
section
/-! DEFINITION. What a consumer reads from a frame's data value (40_validator.md R126 to R130). A reference: the block outputs raw fields and computes none of this. -/

namespace Sys2Proof.Machine

/-- `sext_16`: a 16-bit value read as two's complement (R14). -/
def sext16 (v : BitVec 16) : Int := if v.toNat ≥ 0x8000 then (v.toNat : Int) - 65536 else v.toNat

/-- `Floor(n, basement)` (R126). -/
structure Floor where
  n : Nat
  basement : Bool
  deriving DecidableEq, Repr

/-- The readings of a data value (R126 to R129). -/
inductive Interpretation where
  | currentFloor (f : Floor)
  | noDestination
  | destination (f : Floor)
  | loadKg (kg : Nat)
  | uninterpreted
  deriving DecidableEq, Repr

/-- The signed floor scheme; value 0 gives floor 0 above ground, by the rule as written (R126, N14).
DEDUCED: notes/assumptions/16.md. -/
def floorOf (v : BitVec 16) : Floor :=
  let n := sext16 v
  if n ≥ 0 then { n := n.toNat, basement := false } else { n := (-n).toNat, basement := true }

/-- The written form of a floor: "nF" or "BnF" (R126). -/
def floorText (f : Floor) : String :=
  if f.basement then "B" ++ toString f.n ++ "F" else toString f.n ++ "F"

/-- The interpretation by data number, whatever the command (R126 to R130). -/
def interpret (f : Fields) : Interpretation :=
  if f.dataNumber = 1#14 then .currentFloor (floorOf f.dataValue)
  else if f.dataNumber = 2#14 then
    if f.dataValue = 0#16 then .noDestination else .destination (floorOf f.dataValue)
  else if f.dataNumber = 3#14 then .loadKg f.dataValue.toNat
  else .uninterpreted

end Sys2Proof.Machine
end

