-- ==== Sys2Proof/Machine/Reference.lean ====
section
/-! DEFINITION. The reference texts of 41_framer.md written out: the selection R142 and the complete step R156. The machine's own step is composed of instructions; that the two agree is a statement, not a definition. -/

namespace Sys2Proof.Machine

/-- `Act(s, out_ready)`, the first row that matches (R142). -/
def act (c : Codec) (s : State) : Instr :=
  if s.phase = .done then .none
  else
    match s.buf with
    | [] => if s.phase = .drain then .finishEmpty else .idle
    | b :: _ =>
        if b ≠ marker then .discard
        else
          match window? s.buf with
          | none => if s.phase = .drain then .finishPartial else .wait
          | some w =>
              if s.outValid = true ∧ s.pins.outReady = false then .hold
              else
                match resultOf (validate c w) with
                | .ok => .emit
                | .malformed => .rejectMalformed
                | .checksumMismatch => .rejectChecksum

/-- The bytes an operation pops (R154). -/
def popCount (s : State) : Instr → Nat
  | .discard => 1
  | .rejectMalformed => 1
  | .rejectChecksum => 1
  | .emit => 16
  | .finishEmpty => s.bufCnt
  | .finishPartial => s.bufCnt
  | _ => 0

/-- `Step` (R156), field by field from the start-of-cycle state and inputs; and what the cycle does to the
agents' histories (R19, R150). -/
def referenceStep (P : Params) (s : State) : State :=
  if s.pins.rst then s.resetRegisters
  else
    let a := act P.toCodec s
    let acc := s.pins.inValid = true ∧ s.phase = .run ∧ s.bufCnt < P.bufCap.val
    let fire := s.outValid = true ∧ s.pins.outReady = true
    let m := cntMod P
    { buf := s.buf.drop (popCount s a) ++ if acc then [s.pins.inData] else []
      inCnt := (s.inCnt + if acc then 1 else 0) % m
      noiseCnt := (s.noiseCnt + if a = .discard then 1 else 0) % m
      malCnt := (s.malCnt + if a = .rejectMalformed then 1 else 0) % m
      ckCnt := (s.ckCnt + if a = .rejectChecksum then 1 else 0) % m
      frameCnt := (s.frameCnt + if a = .emit then 1 else 0) % m
      phase :=
        if a = .finishEmpty ∨ a = .finishPartial then .done
        else if s.phase = .run ∧ s.pins.shutdown = true then .drain else s.phase
      outValid := if a = .emit then true else if fire then false else s.outValid
      outRaw := if a = .emit then (window? s.buf).getD s.outRaw else s.outRaw
      residueLen :=
        if a = .finishEmpty ∨ a = .finishPartial then BitVec.ofNat 4 s.bufCnt else s.residueLen
      schedule := s.schedule
      stream := s.stream ++ if acc then [s.pins.inData] else []
      taken := s.taken ++ if fire then [s.outRaw] else []
      cycle := s.cycle }

end Sys2Proof.Machine
end

