-- ==== Sys2Proof/Machine/Scan.lean ====
section
/-! DEFINITION. The reference scan function of a whole byte sequence (41_framer.md R160). -/

namespace Sys2Proof.Machine

/-- What the scan has found so far. -/
structure ScanAcc where
  frames : List Frame
  noise : Nat
  mal : Nat
  ck : Nat
  deriving DecidableEq, Repr

/-- `(frames, noise, mal, ck, residue)` (R160). -/
structure ScanResult where
  frames : List Frame
  noise : Nat
  mal : Nat
  ck : Nat
  residue : List Byte
  deriving DecidableEq, Repr

/-- Nothing found yet. -/
def ScanAcc.empty : ScanAcc := { frames := [], noise := 0, mal := 0, ck := 0 }

/-- The result where the scan stops with the given residue. -/
def ScanAcc.stop (a : ScanAcc) (residue : List Byte) : ScanResult :=
  { frames := a.frames, noise := a.noise, mal := a.mal, ck := a.ck, residue := residue }

/-- The number of bytes the scan has consumed so far (R62, R164). -/
def ScanAcc.consumed (a : ScanAcc) : Nat := a.noise + a.mal + a.ck + 16 * a.frames.length

/-- The loop of R160, with as much fuel as bytes: each round consumes at least one. -/
def scanLoop (c : Codec) : Nat → ScanAcc → List Byte → ScanResult
  | 0, a, S => a.stop S
  | _ + 1, a, [] => a.stop []
  | n + 1, a, b :: rest =>
      if b ≠ marker then scanLoop c n { a with noise := a.noise + 1 } rest
      else
        match window? (b :: rest) with
        | none => a.stop (b :: rest)
        | some w =>
            match resultOf (validate c w) with
            | .ok => scanLoop c n { a with frames := a.frames ++ [w] } ((b :: rest).drop 16)
            | .malformed => scanLoop c n { a with mal := a.mal + 1 } rest
            | .checksumMismatch => scanLoop c n { a with ck := a.ck + 1 } rest

/-- The scan of S, continued from what was found before. -/
def scanFrom (c : Codec) (a : ScanAcc) (S : List Byte) : ScanResult := scanLoop c S.length a S

/-- `Scan(S)` (R160). -/
def scan (c : Codec) (S : List Byte) : ScanResult := scanFrom c .empty S

end Sys2Proof.Machine
end

