-- ==== Sys2Proof/Safety.lean ====
section
/-! DEFINITION. What a sound state of an instance is, for any parameters: the invariants of 10_state.md R46, and that a state follows the reference scan of its stream (41_framer.md R160 to R164). -/

namespace Sys2Proof.Machine

/-- Every counter holds a CNT_W-bit value (R27 to R31). -/
structure State.CountersFit (P : Params) (s : State) : Prop where
  inFits : s.inCnt < cntMod P
  noiseFits : s.noiseCnt < cntMod P
  malFits : s.malCnt < cntMod P
  ckFits : s.ckCnt < cntMod P
  frameFits : s.frameCnt < cntMod P

/-- The invariants of R46, with the conservation identity modulo `2^CNT_W` (its form in 95_test_vectors.md
C.1), and what makes them inductive: the residue length is 0 before FINISH (R36) and counters fit. -/
structure State.Inv (P : Params) (s : State) : Prop where
  bufFits : s.bufCnt ≤ P.bufCap.val
  phaseLegal : s.phase ≠ .reserved
  residueFits : s.residueLen.toNat ≤ 15
  doneEmpty : s.phase = .done → s.bufCnt = 0
  drainNotReady : s.phase = .drain → s.inReady P = false
  outputValidates : s.outValid = true → resultOf (validate P.toCodec s.outRaw) = .ok
  conservation :
    s.inCnt % cntMod P =
      (s.noiseCnt + s.malCnt + s.ckCnt + 16 * s.frameCnt + s.bufCnt + s.residueLen.toNat) % cntMod P
  residueOnce : s.phase ≠ .done → s.residueLen = 0#4
  countersFit : s.CountersFit P

/-- The frame in the output register, if one is pending (R161). -/
def State.pending (s : State) : List Frame := if s.outValid then [s.outRaw] else []

/-- The state is where the reference scan of its stream is: what the scan has found is what was taken,
is pending and was counted; every accepted byte is consumed, buffered or dropped as residue; and scanning
on from here, whatever bytes X come, is scanning the whole stream and X (R160 to R164). -/
structure State.Tracks (P : Params) (s : State) (a : ScanAcc) : Prop where
  frames : a.frames = s.taken ++ s.pending
  inCount : s.inCnt = s.stream.length % cntMod P
  noiseCount : s.noiseCnt = a.noise % cntMod P
  malCount : s.malCnt = a.mal % cntMod P
  ckCount : s.ckCnt = a.ck % cntMod P
  frameCount : s.frameCnt = a.frames.length % cntMod P
  bytes : s.stream.length = a.consumed + s.bufCnt + s.residueLen.toNat
  scanning : s.phase ≠ .done → ∀ X, scan P.toCodec (s.stream ++ X) = scanFrom P.toCodec a (s.buf ++ X)
  finished :
    s.phase = .done →
      ∃ residue, scan P.toCodec s.stream = a.stop residue ∧ residue.length = s.residueLen.toNat

/-- Some scan progress explains the state. -/
def State.FollowsScan (P : Params) (s : State) : Prop := ∃ a, s.Tracks P a

/-- A safe state: the invariants of R46, and the scan followed. -/
def State.Safe (P : Params) (s : State) : Prop := s.Inv P ∧ s.FollowsScan P

/-- The machine of the instance with the given parameters; the host's `Sys2Proof.core` is the one with the
default parameters (R45). -/
def coreWith (P : Params) : Host.Core := { Sys2Proof.core with step := stepWith P }

end Sys2Proof.Machine
end

