-- ==== Sys2Proof/Certificates/Slice0/Obligations.lean ====
section
/-! DEFINITION. The statements for the provers. OBLIGATIONS.json says for each which rules of spec/ it formalises. A statement about the block is one about every instance of it: `stepWith P` and `execWith P` for all parameters P (R45). The host's `step` and `exec` are those of the default parameters (Laws/Ops.lean, `step_eq_stepWith`, `exec_eq_execWith`). -/

open Sys2Proof Sys2Proof.Machine

/-! Words, decoders and the encoder. -/

/-- Words written out from the encodings of R70 and R87 decode to the instructions they stand for. -/
def Obligations.WordsDecodeToTheirInstructions : Prop :=
  decode defaultCodec (.frame #v[0x05, 0x30, 0x30, 0x30, 0x31, 0x57, 0x30, 0x30, 0x30, 0x31, 0x30, 0x30, 0x30, 0x33, 0x39, 0x43])
      = .instr (.wCurfloor 1 0x0003) ∧
  decode defaultCodec (.frame #v[0x05, 0x30, 0x30, 0x30, 0x31, 0x57, 0x30, 0x30, 0x30, 0x32, 0x30, 0x30, 0x30, 0x33, 0x39, 0x44])
      = .instr (.wDestfloor 1 0x0003) ∧
  decode defaultCodec (.frame #v[0x05, 0x30, 0x30, 0x30, 0x31, 0x57, 0x30, 0x30, 0x30, 0x33, 0x30, 0x37, 0x34, 0x45, 0x42, 0x42])
      = .instr (.wLoad 1 0x074E) ∧
  decode defaultCodec (.frame #v[0x05, 0x30, 0x30, 0x34, 0x32, 0x57, 0x39, 0x39, 0x39, 0x39, 0x31, 0x32, 0x33, 0x34, 0x43, 0x42])
      = .instr (.wOtherdn 42 9999 0x1234) ∧
  decode defaultCodec (.frame #v[0x05, 0x30, 0x30, 0x30, 0x31, 0x05, 0x30, 0x30, 0x30, 0x31, 0x30, 0x30, 0x30, 0x33, 0x34, 0x41])
      = .instr (.othercmd 1 0x05 1 0x0003) ∧
  decode defaultCodec (.opsel 0x24#8) = .instr .idle ∧
  decode defaultCodec (.opsel 0x5C#8) = .instr .emit ∧
  decode defaultCodec (.xsel 0x31#7) = .instr .accept ∧
  decode defaultCodec (.xsel 0x7F#7) = .instr .reset

/-- Each transfer's XSEL row applies exactly under its rule's condition, and no OPSEL vector is selected by
two rows (R87). -/
def Obligations.SelectorRowsApplyExactlyWhen : Prop :=
  (∀ (P : Params) (s : State),
    (Instr.reset ∈ transfers (s.xsel P) ↔ s.pins.rst = true) ∧
    (Instr.accept ∈ transfers (s.xsel P) ↔
      s.pins.rst = false ∧ s.pins.inValid = true ∧ s.phase = .run ∧ s.buf.length < P.bufCap.val) ∧
    (Instr.fire ∈ transfers (s.xsel P) ↔
      s.pins.rst = false ∧ s.outValid = true ∧ s.pins.outReady = true) ∧
    (Instr.shutdown ∈ transfers (s.xsel P) ↔
      s.pins.rst = false ∧ s.phase = .run ∧ s.pins.shutdown = true)) ∧
  (∀ (v : BitVec 8) (r r' : SelRow 8), r ∈ opselRows → r' ∈ opselRows →
    rowApplies v r = true → rowApplies v r' = true → r = r')

/-- The operation the masks select from OPSEL is Act, the first row of R84 that matches (R142). -/
def Obligations.SelectionIsFirstMatchingRow : Prop :=
  ∀ (P : Params) (s : State), s.phase ≠ .reserved →
    decodeOpsel (s.opsel P.toCodec) = some (act P.toCodec s)

/-- Every well-formed instruction has a word, and its word decodes to it, for every checksum function and
letter case. -/
def Obligations.DecodeOfEncodeIsIdentity : Prop :=
  ∀ (c : Codec) (i : Instr), i.wellFormed = true → ∃ w, encode c i = some w ∧ decode c w = .instr i

/-- A frame that decodes is the encoding of a well-formed instruction, byte for byte (R82). -/
def Obligations.EncodeOfDecodedFrameIsTheFrame : Prop :=
  ∀ (c : Codec) (w : Frame) (i : Instr),
    decodeFrame c w = .instr i → i.wellFormed = true ∧ encode c i = some (.frame w)

/-- Every frame lies in the opcode table's row of its class: `(win & mask) == match` (R83). -/
def Obligations.FrameMatchesItsTableRow : Prop :=
  ∀ (c : Codec) (w : Frame) (i : Instr), decodeFrame c w = .instr i →
    ∃ pat mask, frameRow i = some (pat, mask) ∧ pack w &&& mask = pat

/-- Byte k of a window is bits 127-8k to 120-8k of its 128-bit port, and nothing is lost (R55). -/
def Obligations.PackingPlacesEveryByte : Prop :=
  (∀ (w : Frame) (k : Fin 16), (pack w).extractLsb' (120 - 8 * k.val) 8 = w[k]) ∧
  (∀ w : Frame, unpack (pack w) = w) ∧ (∀ v : BitVec 128, pack (unpack v) = v)

/-! The validator and the encoder. -/

/-- R124: (a) an encoding validates with its own fields; (b) a valid window is the encoding of its fields. -/
def Obligations.ValidateEncodeRoundTrip : Prop :=
  (∀ (c : Codec) (st : Nat) (cmd : Byte) (dn : Nat) (dv : BitVec 16), st ≤ 9999 → dn ≤ 9999 →
    ∃ w, encodeFrame c st cmd dn dv = some w ∧
      validate c w = .ok ⟨BitVec.ofNat 14 st, cmd, BitVec.ofNat 14 dn, dv, c.checksumFn (body w)⟩) ∧
  (∀ (c : Codec) (w : Frame), resultOf (validate c w) = .ok →
    encodeFrame c (station w).toNat w[5] (dataNumber w).toNat (dataValue w) = some w)

/-- R81: a window is MALFORMED exactly in cases (a) to (c) and CHECKSUM_MISMATCH exactly in case (d). -/
def Obligations.IllegalWindowsAreExactlyThese : Prop :=
  ∀ (c : Codec) (w : Frame),
    let dec := fun b : Byte => 0x30#8 ≤ b ∧ b ≤ 0x39#8
    let hex := fun b : Byte => dec b ∨ (c.hexCase = .upper ∧ 0x41#8 ≤ b ∧ b ≤ 0x46#8) ∨
      (c.hexCase = .lower ∧ 0x61#8 ≤ b ∧ b ≤ 0x66#8)
    let structural := w[0] ≠ 0x05#8 ∨
      (∃ k : Fin 16, k.val ∈ [1, 2, 3, 4, 6, 7, 8, 9] ∧ ¬ dec w[k]) ∨
      (∃ k : Fin 16, k.val ∈ [10, 11, 12, 13, 14, 15] ∧ ¬ hex w[k])
    (resultOf (validate c w) = .malformed ↔ structural) ∧
    (resultOf (validate c w) = .checksumMismatch ↔
      ¬ structural ∧ checksumField w ≠ c.checksumFn (body w))

/-- R112 to R116: the fields of a valid window have the values their digits spell, in range. -/
def Obligations.FieldsAreTheirDigitsValues : Prop :=
  (∀ (c : Codec) (w : Frame) (f : Fields), validate c w = .ok f →
    f.station.toNat = 1000 * digit w[1] + 100 * digit w[2] + 10 * digit w[3] + digit w[4] ∧
    f.station.toNat ≤ 9999 ∧
    f.command = w[5] ∧
    f.dataNumber.toNat = 1000 * digit w[6] + 100 * digit w[7] + 10 * digit w[8] + digit w[9] ∧
    f.dataNumber.toNat ≤ 9999 ∧
    f.dataValue.toNat = 4096 * digit w[10] + 256 * digit w[11] + 16 * digit w[12] + digit w[13] ∧
    f.checksum.toNat = 16 * digit w[14] + digit w[15]) ∧
  (∀ b : Byte,
    (0x30#8 ≤ b → b ≤ 0x39#8 → digit b = b.toNat - 0x30) ∧
    (0x41#8 ≤ b → b ≤ 0x46#8 → digit b = b.toNat - 0x41 + 10) ∧
    (0x61#8 ≤ b → b ≤ 0x66#8 → digit b = b.toNat - 0x61 + 10))

/-- SUM8 meets condition (c) of R109: changing any one byte changes it. -/
def Obligations.SumEightNoticesEveryChangedByte : Prop := SingleByteSensitive sum8

/-- R125: one changed byte of a valid frame is never OK; at offsets 1 to 13 it is MALFORMED if the new
byte leaves the offset's class and CHECKSUM_MISMATCH otherwise; without the marker it is MALFORMED. -/
def Obligations.ChangedByteIsRejected : Prop :=
  ∀ (c : Codec) (f : Frame) (k : Fin 16) (b : Byte), resultOf (validate c f) = .ok → b ≠ f[k] →
    let inClass : Bool :=
      if k.val = 5 then true else if k.val ≤ 9 then isDec b else isHex c.hexCase b
    (k.val = 0 → resultOf (validate c (mutate f k b)) = .malformed) ∧
    (1 ≤ k.val → k.val ≤ 13 → SingleByteSensitive c.checksumFn →
      resultOf (validate c (mutate f k b)) = if inClass then .checksumMismatch else .malformed) ∧
    (14 ≤ k.val → resultOf (validate c (mutate f k b)) ≠ .ok)

/-- Encode answers exactly for station and data number up to 9999 (R120, D27), and a frame instruction
outside that range is refused by name (the model's choice: notes/assumptions/11.md). -/
def Obligations.OutOfRangeOperandsAreRefused : Prop :=
  (∀ (c : Codec) (st : Nat) (cmd : Byte) (dn : Nat) (dv : BitVec 16),
    encodeFrame c st cmd dn dv = none ↔ 9999 < st ∨ 9999 < dn) ∧
  let refuses := fun ex : Instr → State → Out =>
    ∀ (s : State) (st dn : BitVec 14) (cmd : Byte) (v : BitVec 16),
      (9999 < st.toNat →
        ex (.wCurfloor st v) s = .refused .operandRange ∧
        ex (.wDestfloor st v) s = .refused .operandRange ∧
        ex (.wLoad st v) s = .refused .operandRange) ∧
      (9999 < st.toNat ∨ 9999 < dn.toNat →
        ex (.wOtherdn st dn v) s = .refused .operandRange ∧
        ex (.othercmd st cmd dn v) s = .refused .operandRange)
  refuses exec ∧ ∀ P : Params, refuses (execWith P)

/-- R40, R117, R190: the sub-block's ports for a packed window: the result code, and fields only with 0. -/
def Obligations.ValidatorPortsJudgeThePackedWindow : Prop :=
  ∀ (c : Codec) (w : Frame),
    ((validatorPorts c (pack w)).1 = 0#2 ↔ resultOf (validate c w) = .ok) ∧
    ((validatorPorts c (pack w)).1 = 1#2 ↔ resultOf (validate c w) = .malformed) ∧
    ((validatorPorts c (pack w)).1 = 2#2 ↔ resultOf (validate c w) = .checksumMismatch) ∧
    ((validatorPorts c (pack w)).2 =
      if resultOf (validate c w) = .ok then some (fieldsOf w) else none)

/-- The reading of a data value, by data number (R126 to R129). That it is the same for every command, and
that floor 0 is a floor above ground, is the spec's own reading (R130, R126): notes/assumptions/16.md. -/
def Obligations.DataValueIsReadByDataNumber : Prop :=
  ∀ f : Fields,
    (f.dataNumber = 1#14 →
      (f.dataValue.toNat < 0x8000 → interpret f = .currentFloor ⟨f.dataValue.toNat, false⟩) ∧
      (0x8000 ≤ f.dataValue.toNat →
        interpret f = .currentFloor ⟨65536 - f.dataValue.toNat, true⟩)) ∧
    (f.dataNumber = 2#14 →
      (f.dataValue = 0#16 → interpret f = .noDestination) ∧
      (f.dataValue ≠ 0#16 → f.dataValue.toNat < 0x8000 →
        interpret f = .destination ⟨f.dataValue.toNat, false⟩) ∧
      (0x8000 ≤ f.dataValue.toNat →
        interpret f = .destination ⟨65536 - f.dataValue.toNat, true⟩)) ∧
    (f.dataNumber = 3#14 → interpret f = .loadKg f.dataValue.toNat) ∧
    (f.dataNumber ≠ 1#14 → f.dataNumber ≠ 2#14 → f.dataNumber ≠ 3#14 → interpret f = .uninterpreted) ∧
    (∀ cmd : Byte, interpret { f with command := cmd } = interpret f) ∧
    (∀ n : Nat, floorText ⟨n, false⟩ = toString n ++ "F" ∧ floorText ⟨n, true⟩ = "B" ++ toString n ++ "F")

/-! The effect of every instruction where it is executed: the next state whole, so its frame too. That an
instruction can be executed where no row selects it is the model's choice: notes/assumptions/10.md. -/

/-- Every frame class emits the frame its fields encode: the output register takes the 16 bytes, 16 bytes
leave the buffer, `frame_cnt` rises; nothing else changes. That executing a frame is emitting it is the
model's reading: notes/assumptions/11.md. -/
def Obligations.FrameInstructionsEmitTheirFrame : Prop :=
  let effects := fun (P : Params) (ex : Instr → State → Out) =>
    ∀ (s : State) (st dn : BitVec 14) (cmd : Byte) (v : BitVec 16),
      st.toNat ≤ 9999 → dn.toNat ≤ 9999 → 16 ≤ s.buf.length →
      let emitted := fun w : Frame =>
        { s with buf := s.buf.drop 16, outRaw := w, outValid := true,
                 frameCnt := (s.frameCnt + 1) % 2 ^ P.cntW.val }
      (∃ w, encodeFrame P.toCodec st.toNat 0x57#8 1 v = some w ∧
        ex (.wCurfloor st v) s = .next (emitted w)) ∧
      (∃ w, encodeFrame P.toCodec st.toNat 0x57#8 2 v = some w ∧
        ex (.wDestfloor st v) s = .next (emitted w)) ∧
      (∃ w, encodeFrame P.toCodec st.toNat 0x57#8 3 v = some w ∧ ex (.wLoad st v) s = .next (emitted w)) ∧
      (∃ w, encodeFrame P.toCodec st.toNat 0x57#8 dn.toNat v = some w ∧
        ex (.wOtherdn st dn v) s = .next (emitted w)) ∧
      (∃ w, encodeFrame P.toCodec st.toNat cmd dn.toNat v = some w ∧
        ex (.othercmd st cmd dn v) s = .next (emitted w))
  effects defaultParams exec ∧ ∀ P : Params, effects P (execWith P)

/-- EMIT on a window that decodes is the frame instruction it decodes to (notes/assumptions/11.md). -/
def Obligations.EmitIsTheFrameInstruction : Prop :=
  let effects := fun (P : Params) (ex : Instr → State → Out) =>
    ∀ (s : State) (w : Frame) (rest : List Byte) (i : Instr),
      s.buf = w.toList ++ rest → decodeFrame P.toCodec w = .instr i → ex .emit s = ex i s
  effects defaultParams exec ∧ ∀ P : Params, effects P (execWith P)

/-- NONE, IDLE, WAIT and HOLD change nothing, in any state (notes/assumptions/10.md). -/
def Obligations.WaitingOperationsChangeNothing : Prop :=
  let effects := fun ex : Instr → State → Out =>
    ∀ s : State, ex .none s = .next s ∧ ex .idle s = .next s ∧ ex .wait s = .next s ∧
      ex .hold s = .next s
  effects exec ∧ ∀ P : Params, effects (execWith P)

/-- DISCARD and the two rejections pop exactly one byte and raise exactly their counter, whatever the byte
(notes/assumptions/10.md). -/
def Obligations.HeadByteOperationsPopOneAndCount : Prop :=
  let effects := fun (P : Params) (ex : Instr → State → Out) =>
    ∀ (s : State) (b : Byte) (rest : List Byte), s.buf = b :: rest →
      ex .discard s =
        .next { s with buf := rest, noiseCnt := (s.noiseCnt + 1) % 2 ^ P.cntW.val } ∧
      ex .rejectMalformed s =
        .next { s with buf := rest, malCnt := (s.malCnt + 1) % 2 ^ P.cntW.val } ∧
      ex .rejectChecksum s =
        .next { s with buf := rest, ckCnt := (s.ckCnt + 1) % 2 ^ P.cntW.val }
  effects defaultParams exec ∧ ∀ P : Params, effects P (execWith P)

/-- EMIT loads the window at the head whole, valid or not (notes/assumptions/10.md). -/
def Obligations.EmitLoadsTheWindow : Prop :=
  let effects := fun (P : Params) (ex : Instr → State → Out) =>
    ∀ (s : State) (w : Frame) (rest : List Byte), s.buf = w.toList ++ rest →
      ex .emit s =
        .next { s with buf := rest, outRaw := w, outValid := true,
                       frameCnt := (s.frameCnt + 1) % 2 ^ P.cntW.val }
  effects defaultParams exec ∧ ∀ P : Params, effects P (execWith P)

/-- FINISH, of either row, drops the residue, keeps its length and ends the run, in any phase
(notes/assumptions/10.md). -/
def Obligations.FinishDropsTheResidue : Prop :=
  let effects := fun ex : Instr → State → Out =>
    ∀ s : State,
      (s.buf = [] → ex .finishEmpty s = .next { s with residueLen := 0#4, phase := .done }) ∧
      (s.buf.length ≤ 15 → ∃ r : BitVec 4, r.toNat = s.buf.length ∧
        ex .finishPartial s = .next { s with buf := [], residueLen := r, phase := .done })
  effects exec ∧ ∀ P : Params, effects (execWith P)

/-- ACCEPT, FIRE, SHUTDOWN and RESET: their effect where their condition holds, and none where it does
not (notes/assumptions/10.md; what RESET keeps beside the registers is the model's choice, 3.md, 4.md). -/
def Obligations.TransfersHaveTheirEffect : Prop :=
  let effects := fun (P : Params) (ex : Instr → State → Out) =>
    ∀ s : State,
      (s.pins.inValid = true → s.phase = .run → s.buf.length < P.bufCap.val →
        ex .accept s =
          .next { s with buf := s.buf ++ [s.pins.inData], stream := s.stream ++ [s.pins.inData],
                         inCnt := (s.inCnt + 1) % 2 ^ P.cntW.val }) ∧
      (s.pins.inValid = false ∨ s.phase ≠ .run ∨ P.bufCap.val ≤ s.buf.length →
        ex .accept s = .next s) ∧
      (s.outValid = true → s.pins.outReady = true →
        ex .fire s = .next { s with outValid := false, taken := s.taken ++ [s.outRaw] }) ∧
      (s.outValid = false ∨ s.pins.outReady = false → ex .fire s = .next s) ∧
      (s.phase = .run → s.pins.shutdown = true → ex .shutdown s = .next { s with phase := .drain }) ∧
      (s.phase ≠ .run ∨ s.pins.shutdown = false → ex .shutdown s = .next s) ∧
      ex .reset s =
        .next { State.reset with schedule := s.schedule, cycle := s.cycle }
  effects defaultParams exec ∧ ∀ P : Params, effects P (execWith P)

/-- The stops of the model, its own choices on unreachable ground: popping what is not buffered (R53;
notes/assumptions/10.md), and a cycle in the reserved phase (R33) without reset (notes/assumptions/8.md). -/
def Obligations.StopsAreUnderrunAndReservedPhase : Prop :=
  let stops := fun (ex : Instr → State → Out) (st : State → Out) =>
    (∀ s : State, s.buf = [] →
      ex .discard s = .fault .bufferUnderrun ∧ ex .rejectMalformed s = .fault .bufferUnderrun ∧
      ex .rejectChecksum s = .fault .bufferUnderrun) ∧
    (∀ s : State, s.buf.length < 16 → ex .emit s = .fault .bufferUnderrun) ∧
    (∀ s : State, s.phase = .reserved → s.pins.rst = false → st s = .fault .reservedPhase) ∧
    (∀ s : State, s.phase = .reserved → s.pins.rst = true → ∃ t, st s = .next t ∧ t.phase = .run)
  stops exec step ∧ ∀ P : Params, stops (execWith P) (stepWith P)

/-! The cycle. -/

/-- A step runs the decoded instructions: RESET alone; else the scan operation OPSEL decodes to, with the
selected transfers around it; and where the window at the head decodes to a frame instruction and is
judged in this cycle, the step runs that instruction. The clock then moves on. That the instructions of a
cycle run one after the other is the model's choice: notes/assumptions/9.md. -/
def Obligations.StepRunsTheDecodedInstruction : Prop :=
  let runs := fun (P : Params) (ex : Instr → State → Out) (st : State → Out) =>
    let around := fun (s : State) (i : Instr) =>
      selected (s.xsel P) .fire ++ [i] ++ selected (s.xsel P) .accept ++ selected (s.xsel P) .shutdown
    (∀ s : State, s.pins.rst = true → st s = andThen (ex .reset s) fun t => .next t.tick) ∧
    (∀ (s : State) (op : Instr), s.pins.rst = false → decodeOpsel (s.opsel P.toCodec) = some op →
      st s = andThen (runInstrs ex (around s op) s) fun t => .next t.tick) ∧
    (∀ (s : State) (w : Frame) (rest : List Byte) (i : Instr), s.pins.rst = false →
      s.phase = .run ∨ s.phase = .drain → s.outValid = false ∨ s.pins.outReady = true →
      s.buf = w.toList ++ rest → decodeFrame P.toCodec w = .instr i →
      st s = andThen (runInstrs ex (around s i) s) fun t => .next t.tick)
  runs defaultParams exec step ∧ ∀ P : Params, runs P (execWith P) (stepWith P)

/-- The composed step is R156's Step, field by field. The counters' premise says they hold CNT_W bits. That
the cycle's inputs are the schedule's head and then leave it (`tick`) is the model's choice:
notes/assumptions/3.md and 4.md. -/
def Obligations.StepIsTheReferenceStep : Prop :=
  (∀ (P : Params) (s : State), s.phase ≠ .reserved → s.CountersFit P →
    stepWith P s = .next (referenceStep P s).tick) ∧
  (∀ s : State, s.phase ≠ .reserved → s.CountersFit defaultParams →
    step s = .next (referenceStep defaultParams s).tick)

/-- R220: a reset overrides every transfer, in any phase and even the reserved one, and gives every register
its value of R42; a new stream begins (R19). -/
def Obligations.ResetOverridesEverything : Prop :=
  ∀ (P : Params) (s : State) (p : Pins) (ps : List Pins), s.schedule = p :: ps → p.rst = true →
    ∃ t, stepWith P s = .next t ∧ t.buf = [] ∧ t.inCnt = 0 ∧ t.noiseCnt = 0 ∧ t.malCnt = 0 ∧ t.ckCnt = 0 ∧
      t.frameCnt = 0 ∧ t.phase = .run ∧ t.outValid = false ∧ t.outRaw = Vector.replicate 16 0x00#8 ∧
      t.residueLen = 0#4 ∧ t.stream = [] ∧ t.taken = [] ∧
      t.inReady P = true ∧ t.doneFlag = false

/-- R141: in a cycle a byte is accepted exactly when offered while `in_ready`; it goes behind the bytes that
remain and is counted; otherwise it leaves no trace. -/
def Obligations.OfferedByteIsAcceptedExactlyWhenReady : Prop :=
  ∀ (P : Params) (s : State), s.phase ≠ .reserved → s.pins.rst = false →
    ∃ (t : State) (kept : List Byte), stepWith P s = .next t ∧ kept <:+ s.buf ∧
      (s.pins.inValid = true ∧ s.phase = .run ∧ s.buf.length < P.bufCap.val →
        t.buf = kept ++ [s.pins.inData] ∧ t.stream = s.stream ++ [s.pins.inData] ∧
        t.inCnt = (s.inCnt + 1) % 2 ^ P.cntW.val) ∧
      (¬ (s.pins.inValid = true ∧ s.phase = .run ∧ s.buf.length < P.bufCap.val) →
        t.buf = kept ∧ t.stream = s.stream ∧ t.inCnt = s.inCnt)

/-- R154: the pops of the operation, then the push; never more than is buffered, never over capacity. -/
def Obligations.PopsPrecedeThePush : Prop :=
  ∀ (P : Params) (s : State), s.phase ≠ .reserved → s.pins.rst = false →
    let a := act P.toCodec s
    ∃ (t : State) (n : Nat), stepWith P s = .next t ∧
      t.buf = s.buf.drop n ++ (if s.accepts P then [s.pins.inData] else []) ∧
      n = (if a = .discard ∨ a = .rejectMalformed ∨ a = .rejectChecksum then 1
           else if a = .emit then 16
           else if a = .finishEmpty ∨ a = .finishPartial then s.buf.length
           else 0) ∧
      n ≤ s.buf.length ∧
      (s.buf.length ≤ P.bufCap.val → t.buf.length ≤ P.bufCap.val)

/-- R155: in one cycle `in_cnt` rises by the accept bit, and exactly the operation's counter by 1, all
modulo `2^CNT_W`. -/
def Obligations.ExactlyTheOperationsCounterRises : Prop :=
  ∀ (P : Params) (s : State), s.phase ≠ .reserved → s.pins.rst = false →
    let up := fun n : Nat => (n + 1) % 2 ^ P.cntW.val
    ∃ t, stepWith P s = .next t ∧
      t.inCnt = (if s.accepts P then up s.inCnt else s.inCnt) ∧
      t.noiseCnt = (if act P.toCodec s = .discard then up s.noiseCnt else s.noiseCnt) ∧
      t.malCnt = (if act P.toCodec s = .rejectMalformed then up s.malCnt else s.malCnt) ∧
      t.ckCnt = (if act P.toCodec s = .rejectChecksum then up s.ckCnt else s.ckCnt) ∧
      t.frameCnt = (if act P.toCodec s = .emit then up s.frameCnt else s.frameCnt)

/-- R150: EMIT sets `out_valid` even against a fire, a fire clears it, otherwise it holds; a fire delivers
the frame of the cycle's start and leaves `out_raw`. -/
def Obligations.FireDeliversTheFrameOfTheCyclesStart : Prop :=
  ∀ (P : Params) (s : State), s.phase ≠ .reserved → s.pins.rst = false →
    ∃ t, stepWith P s = .next t ∧
      t.outValid = (if act P.toCodec s = .emit then true
                    else if s.outValid = true ∧ s.pins.outReady = true then false else s.outValid) ∧
      t.taken = (if s.outValid = true ∧ s.pins.outReady = true then s.taken ++ [s.outRaw] else s.taken) ∧
      (act P.toCodec s ≠ .emit → t.outRaw = s.outRaw)

/-- R151: shutdown takes effect only in RUN, in the next cycle; from then on nothing is accepted; a byte of
the same cycle still is; only reset returns to RUN. -/
def Obligations.ShutdownStartsDrainingFromRunOnly : Prop :=
  ∀ (P : Params) (s : State), s.phase ≠ .reserved → s.pins.rst = false →
    ∃ t, stepWith P s = .next t ∧
      (s.phase = .run → t.phase = if s.pins.shutdown then .drain else .run) ∧
      (s.phase ≠ .run → t.phase ≠ .run ∧ (s.phase = .done → t.phase = .done)) ∧
      (t.phase ≠ .run → t.inReady P = false) ∧
      (s.phase = .run → act P.toCodec s ≠ .finishEmpty ∧ act P.toCodec s ≠ .finishPartial) ∧
      (s.phase = .run → s.pins.inValid = true → s.buf.length < P.bufCap.val →
        t.stream = s.stream ++ [s.pins.inData])

/-- R152: in DRAIN with nothing more to judge the residue is dropped, its length kept, and the phase is
DONE, whatever the output register holds. -/
def Obligations.FinishEndsTheDrain : Prop :=
  ∀ (P : Params) (s : State), s.phase = .drain → s.pins.rst = false →
    (s.buf = [] ∨ ∃ rest, s.buf = 0x05#8 :: rest ∧ rest.length ≤ 14) →
    ∃ t, stepWith P s = .next t ∧ t.phase = .done ∧ t.buf = [] ∧ t.residueLen.toNat = s.buf.length ∧
      t.inCnt = s.inCnt ∧ t.noiseCnt = s.noiseCnt ∧ t.malCnt = s.malCnt ∧ t.ckCnt = s.ckCnt ∧
      t.frameCnt = s.frameCnt ∧ t.outRaw = s.outRaw ∧ t.stream = s.stream ∧
      (s.outValid = false ∨ s.pins.outReady = true → t.outValid = false ∧ t.doneFlag = true) ∧
      (s.outValid = true → s.pins.outReady = false → t.outValid = true ∧ t.doneFlag = false)

/-- R153: DONE lasts until reset; nothing changes but that a pending frame can still be taken. -/
def Obligations.DoneLastsUntilReset : Prop :=
  ∀ (P : Params) (s : State), s.phase = .done → s.pins.rst = false →
    s.inReady P = false ∧
    ∃ t, stepWith P s = .next t ∧ t.phase = .done ∧ t.buf = s.buf ∧ t.residueLen = s.residueLen ∧
      t.inCnt = s.inCnt ∧ t.noiseCnt = s.noiseCnt ∧ t.malCnt = s.malCnt ∧ t.ckCnt = s.ckCnt ∧
      t.frameCnt = s.frameCnt ∧ t.outRaw = s.outRaw ∧ t.stream = s.stream ∧
      t.outValid = (s.outValid && !s.pins.outReady)

/-- R143, R145: with no window yet in RUN, the scan changes nothing; only the transfers act. -/
def Obligations.PartialWindowWaitsInRun : Prop :=
  ∀ (P : Params) (s : State), s.phase = .run → s.pins.rst = false →
    (s.buf = [] ∨ ∃ rest, s.buf = 0x05#8 :: rest ∧ rest.length ≤ 14) →
    ∃ t, stepWith P s = .next t ∧ t.buf = s.buf ++ (if s.accepts P then [s.pins.inData] else []) ∧
      t.noiseCnt = s.noiseCnt ∧ t.malCnt = s.malCnt ∧ t.ckCnt = s.ckCnt ∧ t.frameCnt = s.frameCnt ∧
      t.outRaw = s.outRaw ∧ t.residueLen = s.residueLen ∧
      t.outValid = (s.outValid && !s.pins.outReady)

/-- R144: a head byte other than 0x05 is discarded and counted as noise, and nothing else. -/
def Obligations.NoiseByteIsDiscardedAndCounted : Prop :=
  ∀ (P : Params) (s : State) (b : Byte) (rest : List Byte), s.phase = .run ∨ s.phase = .drain →
    s.pins.rst = false →
    s.buf = b :: rest → b ≠ 0x05#8 →
    ∃ t, stepWith P s = .next t ∧ t.buf = rest ++ (if s.accepts P then [s.pins.inData] else []) ∧
      t.noiseCnt = (s.noiseCnt + 1) % 2 ^ P.cntW.val ∧
      t.malCnt = s.malCnt ∧ t.ckCnt = s.ckCnt ∧ t.frameCnt = s.frameCnt ∧ t.outRaw = s.outRaw ∧
      t.residueLen = s.residueLen ∧ t.outValid = (s.outValid && !s.pins.outReady)

/-- R146: a full window is not judged while the output is busy; input goes on while there is room. -/
def Obligations.FullWindowHoldsWhileOutputBusy : Prop :=
  ∀ (P : Params) (s : State), s.phase = .run ∨ s.phase = .drain → s.pins.rst = false →
    (∃ rest, s.buf = 0x05#8 :: rest ∧ 15 ≤ rest.length) → s.outValid = true → s.pins.outReady = false →
    ∃ t, stepWith P s = .next t ∧ t.buf = s.buf ++ (if s.accepts P then [s.pins.inData] else []) ∧
      t.noiseCnt = s.noiseCnt ∧ t.malCnt = s.malCnt ∧ t.ckCnt = s.ckCnt ∧ t.frameCnt = s.frameCnt ∧
      t.outRaw = s.outRaw ∧ t.outValid = true ∧ t.taken = s.taken ∧ t.residueLen = s.residueLen ∧
      (s.buf.length = P.bufCap.val → s.inReady P = false)

/-- R147: a valid window with the output free is emitted whole at one edge; a frame that fires in the same
cycle is delivered and `out_valid` stays 1. -/
def Obligations.ValidWindowIsEmitted : Prop :=
  ∀ (P : Params) (s : State) (w : Frame) (rest : List Byte), s.phase = .run ∨ s.phase = .drain →
    s.pins.rst = false → s.buf = w.toList ++ rest → s.outValid = false ∨ s.pins.outReady = true →
    resultOf (validate P.toCodec w) = .ok →
    ∃ t, stepWith P s = .next t ∧ t.outRaw = w ∧ t.outValid = true ∧
      t.buf = rest ++ (if s.accepts P then [s.pins.inData] else []) ∧
      t.frameCnt = (s.frameCnt + 1) % 2 ^ P.cntW.val ∧
      t.noiseCnt = s.noiseCnt ∧ t.malCnt = s.malCnt ∧ t.ckCnt = s.ckCnt ∧
      t.residueLen = s.residueLen ∧
      t.taken = s.taken ++ (if s.outValid then [s.outRaw] else [])

/-- R148, R149: a window at a marker that fails loses exactly its first byte and raises exactly the counter
of its cause; the other 15 bytes stay in order. -/
def Obligations.FailedWindowLosesOneByte : Prop :=
  ∀ (P : Params) (s : State) (w : Frame) (rest : List Byte), s.phase = .run ∨ s.phase = .drain →
    s.pins.rst = false → s.buf = w.toList ++ rest → w[0] = 0x05#8 →
    s.outValid = false ∨ s.pins.outReady = true → resultOf (validate P.toCodec w) ≠ .ok →
    let up := fun n : Nat => (n + 1) % 2 ^ P.cntW.val
    ∃ t, stepWith P s = .next t ∧
      t.buf = w.toList.tail ++ rest ++ (if s.accepts P then [s.pins.inData] else []) ∧
      (resultOf (validate P.toCodec w) = .malformed → t.malCnt = up s.malCnt ∧ t.ckCnt = s.ckCnt) ∧
      (resultOf (validate P.toCodec w) = .checksumMismatch →
        t.ckCnt = up s.ckCnt ∧ t.malCnt = s.malCnt) ∧
      t.noiseCnt = s.noiseCnt ∧ t.frameCnt = s.frameCnt ∧ t.outRaw = s.outRaw ∧
      t.residueLen = s.residueLen ∧ t.outValid = false

/-- R157 to R159: an input is read only where its rule says; elsewhere any other value gives the same
step. -/
def Obligations.InputsAreReadOnlyWhereTheirRulesSay : Prop :=
  ∀ (P : Params) (s : State) (p : Pins) (ps : List Pins), s.schedule = p :: ps →
    (∀ b : Byte, p.rst = true ∨ p.inValid = false ∨ s.inReady P = false →
      stepWith P { s with schedule := { p with inData := b } :: ps } = stepWith P s) ∧
    (∀ x : Bool, s.outValid = false →
      stepWith P { s with schedule := { p with outReady := x } :: ps } = stepWith P s) ∧
    (∀ x : Bool, s.phase ≠ .run →
      stepWith P { s with schedule := { p with shutdown := x } :: ps } = stepWith P s)

/-- R32: the head position moves only by the pops of the cycle's operation. -/
def Obligations.HeadPositionMovesByThePops : Prop :=
  ∀ (P : Params) (s : State), s.phase ≠ .reserved → s.pins.rst = false →
    ∃ t, stepWith P s = .next t ∧
      t.headPos P = (s.headPos P + popCount s (act P.toCodec s)) % 2 ^ P.cntW.val

/-- The host's machine runs, for any number of cycles, as the instance with the default parameters (R9 to
R12). That the host's machine is that instance is the model's choice: notes/assumptions/1.md. -/
def Obligations.HostIsTheDefaultInstance : Prop :=
  ∀ (k : Nat) (s : State), Host.Core.run Sys2Proof.core k s = Host.Core.run (coreWith defaultParams) k s

/-! Invariants and runs. -/

/-- The state after reset is safe, for every choice of parameters and of coming inputs. -/
def Obligations.ResetStateIsSafe : Prop :=
  ∀ P : Params, State.reset.Safe P ∧
    ∀ ps : List Pins, ({ State.reset with schedule := ps } : State).Safe P

/-- Every step keeps the invariants of R46 (in the inductive form `State.Inv`). -/
def Obligations.StepKeepsTheInvariants : Prop :=
  (∀ (P : Params) (s t : State), s.Inv P → stepWith P s = .next t → t.Inv P) ∧
  (∀ s t : State, s.Inv defaultParams → step s = .next t → t.Inv defaultParams)

/-- Every step keeps a state where the reference scan of its stream is. The stream and the frames taken are
histories that the model keeps in the state: notes/assumptions/6.md. -/
def Obligations.StepFollowsTheReferenceScan : Prop :=
  (∀ (P : Params) (s t : State), s.Inv P → s.FollowsScan P → stepWith P s = .next t → t.FollowsScan P) ∧
  (∀ s t : State, s.Inv defaultParams → s.FollowsScan defaultParams → step s = .next t →
    t.FollowsScan defaultParams)

/-- R171: from a safe state, and so from reset under any parameters and any inputs, no input sequence of any
length makes a step fail, and every state on the way is safe. -/
def Obligations.NoInputSequenceFails : Prop :=
  (∀ (P : Params) (k : Nat) (s : State), s.Safe P →
    ∃ t : State, Host.Core.run (coreWith P) k s = .next t ∧ t.Safe P) ∧
  (∀ (P : Params) (k : Nat) (ps : List Pins),
    ∃ t : State, Host.Core.run (coreWith P) k { State.reset with schedule := ps } = .next t ∧ t.Safe P) ∧
  (∀ (k : Nat) (s : State), s.Safe defaultParams →
    ∃ t : State, Host.Core.run Sys2Proof.core k s = .next t ∧ t.Safe defaultParams)

/-- R46, as it is written, of every safe state; "before any counter wraps" is: the stream, the longest of
the counts, is shorter than `2^CNT_W`. -/
def Obligations.SafeStatesMeetTheListedInvariants : Prop :=
  ∀ (P : Params) (s : State), s.Safe P →
    s.buf.length ≤ P.bufCap.val ∧ s.phase ≠ .reserved ∧ s.residueLen.toNat ≤ 15 ∧
    (s.phase = .done → s.buf.length = 0) ∧ (s.phase = .drain → s.inReady P = false) ∧
    (s.outValid = true → resultOf (validate P.toCodec s.outRaw) = .ok) ∧
    (s.stream.length < 2 ^ P.cntW.val →
      s.inCnt =
        s.noiseCnt + s.malCnt + s.ckCnt + 16 * s.frameCnt + s.buf.length + s.residueLen.toNat)

/-! The laws of the framer. -/

/-- R161: what was fired, then the pending frame, is a prefix of the frames of the scan of the stream. -/
def Obligations.FramesTakenAreAPrefixOfTheScan : Prop :=
  ∀ (P : Params) (s : State), s.Safe P →
    s.taken ++ (if s.outValid then [s.outRaw] else []) <+: (scan P.toCodec s.stream).frames

/-- R162: once `done`, frames, counters and residue are those of the scan; and in RUN at IDLE or WAIT the
buffer is the scan's residue and every frame of it is fired or pending. -/
def Obligations.CompletionLaw : Prop :=
  ∀ (P : Params) (s : State), s.Safe P →
    let r := scan P.toCodec s.stream
    (s.doneFlag = true →
      s.taken = r.frames ∧ s.noiseCnt = r.noise % 2 ^ P.cntW.val ∧
      s.malCnt = r.mal % 2 ^ P.cntW.val ∧ s.ckCnt = r.ck % 2 ^ P.cntW.val ∧
      s.frameCnt = r.frames.length % 2 ^ P.cntW.val ∧
      s.residueLen.toNat = r.residue.length) ∧
    (s.phase = .run → act P.toCodec s = .idle ∨ act P.toCodec s = .wait →
      s.buf = r.residue ∧ s.taken ++ (if s.outValid then [s.outRaw] else []) = r.frames)

/-- R163: two finished runs on one stream end with the same frames and counters, whatever their schedules
and buffer capacities. -/
def Obligations.ResultDependsOnlyOnTheStream : Prop :=
  ∀ (P Q : Params) (s t : State), s.Safe P → t.Safe Q → s.doneFlag = true → t.doneFlag = true →
    s.stream = t.stream → P.toCodec = Q.toCodec → P.cntW = Q.cntW →
    s.taken = t.taken ∧ s.inCnt = t.inCnt ∧ s.noiseCnt = t.noiseCnt ∧ s.malCnt = t.malCnt ∧
    s.ckCnt = t.ckCnt ∧ s.frameCnt = t.frameCnt ∧ s.residueLen = t.residueLen

/-- R164: while nothing has wrapped, every accepted byte is counted once, and before FINISH the head
position is the number of bytes consumed. -/
def Obligations.ConservationOfBytes : Prop :=
  ∀ (P : Params) (s : State), s.Safe P → s.stream.length < 2 ^ P.cntW.val →
    s.inCnt =
      s.noiseCnt + s.malCnt + s.ckCnt + 16 * s.frameCnt + s.buf.length + s.residueLen.toNat ∧
    (s.phase ≠ .done → s.headPos P = s.noiseCnt + s.malCnt + s.ckCnt + 16 * s.frameCnt)

/-- The scan consumes every byte once (R62), every frame it finds validates, and its residue is empty or a
truncated frame (R160, R169). -/
def Obligations.ScanConsumesEveryByteOnce : Prop :=
  ∀ (c : Codec) (S : List Byte),
    let r := scan c S
    r.noise + r.mal + r.ck + 16 * r.frames.length + r.residue.length = S.length ∧
    (∀ w ∈ r.frames, resultOf (validate c w) = .ok) ∧
    (r.residue = [] ∨ ∃ rest, r.residue = 0x05#8 :: rest ∧ rest.length ≤ 14) ∧ r.residue <:+ S

/-- R166: a valid frame whose command byte is not HEX is found at its own position, whatever precedes and
follows it. -/
def Obligations.RecoveryLaw : Prop :=
  ∀ (c : Codec) (f : Frame) (P Q : List Byte), resultOf (validate c f) = .ok →
    isHex c.hexCase f[5] = false →
    f ∈ (scan c (P ++ f.toList ++ Q)).frames ∧
    ∃ a : ScanAcc, a.consumed = P.length ∧
      scan c (P ++ f.toList ++ Q) = scanFrom c { a with frames := a.frames ++ [f] } Q

/-- R167: frames of command 0x57 between noise are all found, in order; and nothing else is, when no window
inside a stretch of noise validates. -/
def Obligations.ResyncBound : Prop :=
  ∀ (c : Codec) (parts : List (List Byte × Frame)) (Q : List Byte),
    (∀ x ∈ parts, resultOf (validate c x.2) = .ok ∧ x.2[5] = 0x57#8) →
    let S := (parts.flatMap fun x => x.1 ++ x.2.toList) ++ Q
    (parts.map Prod.snd).Sublist (scan c S).frames ∧
    ((∀ noise ∈ Q :: parts.map Prod.fst, ∀ (j : Nat) (w : Frame),
        window? (noise.drop j) = some w → resultOf (validate c w) ≠ .ok) →
      (scan c S).frames = parts.map Prod.snd)

/-- R168: a valid frame with any one byte changed is lost alone: the valid frame right behind it is the one
frame found. -/
def Obligations.CorruptedFrameDoesNotLoseTheNext : Prop :=
  ∀ (c : Codec) (f g : Frame) (k : Fin 16) (b : Byte), SingleByteSensitive c.checksumFn →
    resultOf (validate c f) = .ok → resultOf (validate c g) = .ok → g[5] = 0x57#8 → b ≠ f[k] →
    (scan c ((mutate f k b).toList ++ g.toList)).frames = [g]

/-! Progress and timing. -/

/-- A shutdown completes: with the consumer ready and no reset, DONE is reached within `buf_cnt + 3`
cycles of the one that samples `shutdown` in RUN (R165, R234 without HOLD cycles). -/
def Obligations.ShutdownCompletes : Prop :=
  ∀ (P : Params) (s : State) (p : Pins) (ps rest : List Pins), s.phase = .run →
    s.schedule = p :: ps ++ rest →
    ps.length = s.buf.length + 2 → p.shutdown = true →
    (∀ q ∈ p :: ps, q.rst = false ∧ q.outReady = true) →
    ∃ t : State, Host.Core.run (coreWith P) (s.buf.length + 3) s = .next t ∧ t.phase = .done

/-- R225: a byte accepted in one cycle is judged from the next: a frame whose last byte is accepted in this
cycle is emitted in the next one. -/
def Obligations.FrameIsEmittedTheCycleAfterItsLastByte : Prop :=
  ∀ (P : Params) (s : State) (p q : Pins) (ps : List Pins) (w : Frame), s.phase = .run →
    s.schedule = p :: q :: ps → p.rst = false → q.rst = false → p.inValid = true →
    w.toList = s.buf ++ [p.inData] → resultOf (validate P.toCodec w) = .ok →
    s.outValid = false ∨ p.outReady = true ∨ q.outReady = true →
    ∃ t u : State, stepWith P s = .next t ∧ t.buf = w.toList ∧ t.frameCnt = s.frameCnt ∧
      stepWith P t = .next u ∧ u.outValid = true ∧ u.outRaw = w ∧
      u.frameCnt = (s.frameCnt + 1) % 2 ^ P.cntW.val

/-- R228: the output is stable from the edge that sets `out_valid` until it fires; a consumer receives the
frame present at the start of the cycle; and there is no value to read while `out_valid` is 0 (the model's
choice: notes/assumptions/13.md). -/
def Obligations.PendingFrameIsStableUntilItFires : Prop :=
  ∀ (P : Params) (s : State), s.phase ≠ .reserved → s.pins.rst = false →
    (s.outValid = true → s.pins.outReady = false →
      ∃ t, stepWith P s = .next t ∧ t.outValid = true ∧ t.outRaw = s.outRaw ∧ t.taken = s.taken ∧
        (t.outputs P).frame = (s.outputs P).frame) ∧
    (s.outValid = true → s.pins.outReady = true →
      ∃ t, stepWith P s = .next t ∧ t.taken = s.taken ++ [s.outRaw]) ∧
    (s.outValid = true → (s.outputs P).frame = some (pack s.outRaw, fieldsOf s.outRaw)) ∧
    (s.outValid = false → (s.outputs P).frame = none)

/-- With the consumer ready, `buf_cnt` never exceeds 16, so with a capacity of 17 or more `in_ready` never
drops in RUN, whatever the stream (R233, R226). -/
def Obligations.ReadyConsumerNeverStallsTheInput : Prop :=
  ∀ (P : Params) (s : State), s.phase ≠ .reserved → s.pins.rst = false → s.pins.outReady = true →
    s.buf.length ≤ 16 →
    ∃ t, stepWith P s = .next t ∧ t.buf.length ≤ 16 ∧
      (17 ≤ P.bufCap.val → t.phase = .run → t.inReady P = true)

/-- A cycle reads the capacity only through `in_ready`: two instances that differ in BUF_CAP alone step alike
from every state in which their `in_ready` agrees (R170, R37). -/
def Obligations.CapacityIsReadOnlyThroughReady : Prop :=
  ∀ (P Q : Params) (s : State), P.toCodec = Q.toCodec → P.cntW = Q.cntW → s.inReady P = s.inReady Q →
    stepWith P s = stepWith Q s
end

