-- ==== Sys2Proof/Laws/State.lean ====
section
/-! SUPPORT. For each update of the state one lemma per field, so that no proof unfolds a record update. -/

namespace Sys2Proof.Machine

variable (P : Params) (s : State)

/-! `push`: Push (R53). -/

@[simp] theorem State.push_buf (b : Byte) : (s.push b).buf = s.buf ++ [b] := rfl

@[simp] theorem State.push_inCnt (b : Byte) : (s.push b).inCnt = s.inCnt := rfl

@[simp] theorem State.push_noiseCnt (b : Byte) : (s.push b).noiseCnt = s.noiseCnt := rfl

@[simp] theorem State.push_malCnt (b : Byte) : (s.push b).malCnt = s.malCnt := rfl

@[simp] theorem State.push_ckCnt (b : Byte) : (s.push b).ckCnt = s.ckCnt := rfl

@[simp] theorem State.push_frameCnt (b : Byte) : (s.push b).frameCnt = s.frameCnt := rfl

@[simp] theorem State.push_phase (b : Byte) : (s.push b).phase = s.phase := rfl

@[simp] theorem State.push_outValid (b : Byte) : (s.push b).outValid = s.outValid := rfl

@[simp] theorem State.push_outRaw (b : Byte) : (s.push b).outRaw = s.outRaw := rfl

@[simp] theorem State.push_residueLen (b : Byte) : (s.push b).residueLen = s.residueLen := rfl

@[simp] theorem State.push_schedule (b : Byte) : (s.push b).schedule = s.schedule := rfl

@[simp] theorem State.push_stream (b : Byte) : (s.push b).stream = s.stream := rfl

@[simp] theorem State.push_taken (b : Byte) : (s.push b).taken = s.taken := rfl

@[simp] theorem State.push_cycle (b : Byte) : (s.push b).cycle = s.cycle := rfl

/-! `dropHead`: the buffer without its head (R53). -/

@[simp] theorem State.dropHead_buf (n : Nat) : (s.dropHead n).buf = s.buf.drop n := rfl

@[simp] theorem State.dropHead_inCnt (n : Nat) : (s.dropHead n).inCnt = s.inCnt := rfl

@[simp] theorem State.dropHead_noiseCnt (n : Nat) : (s.dropHead n).noiseCnt = s.noiseCnt := rfl

@[simp] theorem State.dropHead_malCnt (n : Nat) : (s.dropHead n).malCnt = s.malCnt := rfl

@[simp] theorem State.dropHead_ckCnt (n : Nat) : (s.dropHead n).ckCnt = s.ckCnt := rfl

@[simp] theorem State.dropHead_frameCnt (n : Nat) : (s.dropHead n).frameCnt = s.frameCnt := rfl

@[simp] theorem State.dropHead_phase (n : Nat) : (s.dropHead n).phase = s.phase := rfl

@[simp] theorem State.dropHead_outValid (n : Nat) : (s.dropHead n).outValid = s.outValid := rfl

@[simp] theorem State.dropHead_outRaw (n : Nat) : (s.dropHead n).outRaw = s.outRaw := rfl

@[simp] theorem State.dropHead_residueLen (n : Nat) :
    (s.dropHead n).residueLen = s.residueLen := rfl

@[simp] theorem State.dropHead_schedule (n : Nat) : (s.dropHead n).schedule = s.schedule := rfl

@[simp] theorem State.dropHead_stream (n : Nat) : (s.dropHead n).stream = s.stream := rfl

@[simp] theorem State.dropHead_taken (n : Nat) : (s.dropHead n).taken = s.taken := rfl

@[simp] theorem State.dropHead_cycle (n : Nat) : (s.dropHead n).cycle = s.cycle := rfl

/-! `countNoise`: noise counted (R28). -/

@[simp] theorem State.countNoise_buf : (s.countNoise P).buf = s.buf := rfl

@[simp] theorem State.countNoise_inCnt : (s.countNoise P).inCnt = s.inCnt := rfl

@[simp] theorem State.countNoise_noiseCnt : (s.countNoise P).noiseCnt = wrapInc P s.noiseCnt := rfl

@[simp] theorem State.countNoise_malCnt : (s.countNoise P).malCnt = s.malCnt := rfl

@[simp] theorem State.countNoise_ckCnt : (s.countNoise P).ckCnt = s.ckCnt := rfl

@[simp] theorem State.countNoise_frameCnt : (s.countNoise P).frameCnt = s.frameCnt := rfl

@[simp] theorem State.countNoise_phase : (s.countNoise P).phase = s.phase := rfl

@[simp] theorem State.countNoise_outValid : (s.countNoise P).outValid = s.outValid := rfl

@[simp] theorem State.countNoise_outRaw : (s.countNoise P).outRaw = s.outRaw := rfl

@[simp] theorem State.countNoise_residueLen : (s.countNoise P).residueLen = s.residueLen := rfl

@[simp] theorem State.countNoise_schedule : (s.countNoise P).schedule = s.schedule := rfl

@[simp] theorem State.countNoise_stream : (s.countNoise P).stream = s.stream := rfl

@[simp] theorem State.countNoise_taken : (s.countNoise P).taken = s.taken := rfl

@[simp] theorem State.countNoise_cycle : (s.countNoise P).cycle = s.cycle := rfl

/-! `countRejection`: a rejection counted (R191, R192). -/

@[simp] theorem State.countRejection_buf (r : Rejection) :
    (s.countRejection P r).buf = s.buf := by cases r <;> rfl

@[simp] theorem State.countRejection_inCnt (r : Rejection) :
    (s.countRejection P r).inCnt = s.inCnt := by cases r <;> rfl

@[simp] theorem State.countRejection_noiseCnt (r : Rejection) :
    (s.countRejection P r).noiseCnt = s.noiseCnt := by cases r <;> rfl

@[simp] theorem State.countRejection_frameCnt (r : Rejection) :
    (s.countRejection P r).frameCnt = s.frameCnt := by cases r <;> rfl

@[simp] theorem State.countRejection_phase (r : Rejection) :
    (s.countRejection P r).phase = s.phase := by cases r <;> rfl

@[simp] theorem State.countRejection_outValid (r : Rejection) :
    (s.countRejection P r).outValid = s.outValid := by cases r <;> rfl

@[simp] theorem State.countRejection_outRaw (r : Rejection) :
    (s.countRejection P r).outRaw = s.outRaw := by cases r <;> rfl

@[simp] theorem State.countRejection_residueLen (r : Rejection) :
    (s.countRejection P r).residueLen = s.residueLen := by cases r <;> rfl

@[simp] theorem State.countRejection_schedule (r : Rejection) :
    (s.countRejection P r).schedule = s.schedule := by cases r <;> rfl

@[simp] theorem State.countRejection_stream (r : Rejection) :
    (s.countRejection P r).stream = s.stream := by cases r <;> rfl

@[simp] theorem State.countRejection_taken (r : Rejection) :
    (s.countRejection P r).taken = s.taken := by cases r <;> rfl

@[simp] theorem State.countRejection_cycle (r : Rejection) :
    (s.countRejection P r).cycle = s.cycle := by cases r <;> rfl

@[simp] theorem State.countRejection_malCnt_malformedFrame :
    (s.countRejection P .malformedFrame).malCnt = wrapInc P s.malCnt := rfl

@[simp] theorem State.countRejection_ckCnt_malformedFrame :
    (s.countRejection P .malformedFrame).ckCnt = s.ckCnt := rfl

@[simp] theorem State.countRejection_malCnt_checksumMismatch :
    (s.countRejection P .checksumMismatch).malCnt = s.malCnt := rfl

@[simp] theorem State.countRejection_ckCnt_checksumMismatch :
    (s.countRejection P .checksumMismatch).ckCnt = wrapInc P s.ckCnt := rfl

/-! `load`: the output register loaded (R147). -/

@[simp] theorem State.load_buf (w : Frame) : (s.load P w).buf = s.buf := rfl

@[simp] theorem State.load_inCnt (w : Frame) : (s.load P w).inCnt = s.inCnt := rfl

@[simp] theorem State.load_noiseCnt (w : Frame) : (s.load P w).noiseCnt = s.noiseCnt := rfl

@[simp] theorem State.load_malCnt (w : Frame) : (s.load P w).malCnt = s.malCnt := rfl

@[simp] theorem State.load_ckCnt (w : Frame) : (s.load P w).ckCnt = s.ckCnt := rfl

@[simp] theorem State.load_frameCnt (w : Frame) :
    (s.load P w).frameCnt = wrapInc P s.frameCnt := rfl

@[simp] theorem State.load_phase (w : Frame) : (s.load P w).phase = s.phase := rfl

@[simp] theorem State.load_outValid (w : Frame) : (s.load P w).outValid = true := rfl

@[simp] theorem State.load_outRaw (w : Frame) : (s.load P w).outRaw = w := rfl

@[simp] theorem State.load_residueLen (w : Frame) : (s.load P w).residueLen = s.residueLen := rfl

@[simp] theorem State.load_schedule (w : Frame) : (s.load P w).schedule = s.schedule := rfl

@[simp] theorem State.load_stream (w : Frame) : (s.load P w).stream = s.stream := rfl

@[simp] theorem State.load_taken (w : Frame) : (s.load P w).taken = s.taken := rfl

@[simp] theorem State.load_cycle (w : Frame) : (s.load P w).cycle = s.cycle := rfl

/-! `finish`: the end of a shutdown (R152). -/

@[simp] theorem State.finish_buf : (s.finish).buf = [] := rfl

@[simp] theorem State.finish_inCnt : (s.finish).inCnt = s.inCnt := rfl

@[simp] theorem State.finish_noiseCnt : (s.finish).noiseCnt = s.noiseCnt := rfl

@[simp] theorem State.finish_malCnt : (s.finish).malCnt = s.malCnt := rfl

@[simp] theorem State.finish_ckCnt : (s.finish).ckCnt = s.ckCnt := rfl

@[simp] theorem State.finish_frameCnt : (s.finish).frameCnt = s.frameCnt := rfl

@[simp] theorem State.finish_phase : (s.finish).phase = .done := rfl

@[simp] theorem State.finish_outValid : (s.finish).outValid = s.outValid := rfl

@[simp] theorem State.finish_outRaw : (s.finish).outRaw = s.outRaw := rfl

@[simp] theorem State.finish_residueLen : (s.finish).residueLen = BitVec.ofNat 4 s.bufCnt := rfl

@[simp] theorem State.finish_schedule : (s.finish).schedule = s.schedule := rfl

@[simp] theorem State.finish_stream : (s.finish).stream = s.stream := rfl

@[simp] theorem State.finish_taken : (s.finish).taken = s.taken := rfl

@[simp] theorem State.finish_cycle : (s.finish).cycle = s.cycle := rfl

/-! `acceptByte`: a byte accepted (R141). -/

@[simp] theorem State.acceptByte_buf (b : Byte) : (s.acceptByte P b).buf = s.buf ++ [b] := rfl

@[simp] theorem State.acceptByte_inCnt (b : Byte) :
    (s.acceptByte P b).inCnt = wrapInc P s.inCnt := rfl

@[simp] theorem State.acceptByte_noiseCnt (b : Byte) :
    (s.acceptByte P b).noiseCnt = s.noiseCnt := rfl

@[simp] theorem State.acceptByte_malCnt (b : Byte) : (s.acceptByte P b).malCnt = s.malCnt := rfl

@[simp] theorem State.acceptByte_ckCnt (b : Byte) : (s.acceptByte P b).ckCnt = s.ckCnt := rfl

@[simp] theorem State.acceptByte_frameCnt (b : Byte) :
    (s.acceptByte P b).frameCnt = s.frameCnt := rfl

@[simp] theorem State.acceptByte_phase (b : Byte) : (s.acceptByte P b).phase = s.phase := rfl

@[simp] theorem State.acceptByte_outValid (b : Byte) :
    (s.acceptByte P b).outValid = s.outValid := rfl

@[simp] theorem State.acceptByte_outRaw (b : Byte) : (s.acceptByte P b).outRaw = s.outRaw := rfl

@[simp] theorem State.acceptByte_residueLen (b : Byte) :
    (s.acceptByte P b).residueLen = s.residueLen := rfl

@[simp] theorem State.acceptByte_schedule (b : Byte) :
    (s.acceptByte P b).schedule = s.schedule := rfl

@[simp] theorem State.acceptByte_stream (b : Byte) :
    (s.acceptByte P b).stream = s.stream ++ [b] := rfl

@[simp] theorem State.acceptByte_taken (b : Byte) : (s.acceptByte P b).taken = s.taken := rfl

@[simp] theorem State.acceptByte_cycle (b : Byte) : (s.acceptByte P b).cycle = s.cycle := rfl

/-! `deliver`: the pending frame delivered (R150). -/

@[simp] theorem State.deliver_buf : (s.deliver).buf = s.buf := rfl

@[simp] theorem State.deliver_inCnt : (s.deliver).inCnt = s.inCnt := rfl

@[simp] theorem State.deliver_noiseCnt : (s.deliver).noiseCnt = s.noiseCnt := rfl

@[simp] theorem State.deliver_malCnt : (s.deliver).malCnt = s.malCnt := rfl

@[simp] theorem State.deliver_ckCnt : (s.deliver).ckCnt = s.ckCnt := rfl

@[simp] theorem State.deliver_frameCnt : (s.deliver).frameCnt = s.frameCnt := rfl

@[simp] theorem State.deliver_phase : (s.deliver).phase = s.phase := rfl

@[simp] theorem State.deliver_outValid : (s.deliver).outValid = false := rfl

@[simp] theorem State.deliver_outRaw : (s.deliver).outRaw = s.outRaw := rfl

@[simp] theorem State.deliver_residueLen : (s.deliver).residueLen = s.residueLen := rfl

@[simp] theorem State.deliver_schedule : (s.deliver).schedule = s.schedule := rfl

@[simp] theorem State.deliver_stream : (s.deliver).stream = s.stream := rfl

@[simp] theorem State.deliver_taken : (s.deliver).taken = s.taken ++ [s.outRaw] := rfl

@[simp] theorem State.deliver_cycle : (s.deliver).cycle = s.cycle := rfl

/-! `startDrain`: shutdown seen (R151). -/

@[simp] theorem State.startDrain_buf : (s.startDrain).buf = s.buf := rfl

@[simp] theorem State.startDrain_inCnt : (s.startDrain).inCnt = s.inCnt := rfl

@[simp] theorem State.startDrain_noiseCnt : (s.startDrain).noiseCnt = s.noiseCnt := rfl

@[simp] theorem State.startDrain_malCnt : (s.startDrain).malCnt = s.malCnt := rfl

@[simp] theorem State.startDrain_ckCnt : (s.startDrain).ckCnt = s.ckCnt := rfl

@[simp] theorem State.startDrain_frameCnt : (s.startDrain).frameCnt = s.frameCnt := rfl

@[simp] theorem State.startDrain_phase : (s.startDrain).phase = .drain := rfl

@[simp] theorem State.startDrain_outValid : (s.startDrain).outValid = s.outValid := rfl

@[simp] theorem State.startDrain_outRaw : (s.startDrain).outRaw = s.outRaw := rfl

@[simp] theorem State.startDrain_residueLen : (s.startDrain).residueLen = s.residueLen := rfl

@[simp] theorem State.startDrain_schedule : (s.startDrain).schedule = s.schedule := rfl

@[simp] theorem State.startDrain_stream : (s.startDrain).stream = s.stream := rfl

@[simp] theorem State.startDrain_taken : (s.startDrain).taken = s.taken := rfl

@[simp] theorem State.startDrain_cycle : (s.startDrain).cycle = s.cycle := rfl

/-! `resetRegisters`: every register reset (R42, R220). -/

@[simp] theorem State.resetRegisters_buf : (s.resetRegisters).buf = [] := rfl

@[simp] theorem State.resetRegisters_inCnt : (s.resetRegisters).inCnt = 0 := rfl

@[simp] theorem State.resetRegisters_noiseCnt : (s.resetRegisters).noiseCnt = 0 := rfl

@[simp] theorem State.resetRegisters_malCnt : (s.resetRegisters).malCnt = 0 := rfl

@[simp] theorem State.resetRegisters_ckCnt : (s.resetRegisters).ckCnt = 0 := rfl

@[simp] theorem State.resetRegisters_frameCnt : (s.resetRegisters).frameCnt = 0 := rfl

@[simp] theorem State.resetRegisters_phase : (s.resetRegisters).phase = .run := rfl

@[simp] theorem State.resetRegisters_outValid : (s.resetRegisters).outValid = false := rfl

@[simp] theorem State.resetRegisters_outRaw :
    (s.resetRegisters).outRaw = Vector.replicate 16 0x00#8 := rfl

@[simp] theorem State.resetRegisters_residueLen : (s.resetRegisters).residueLen = 0#4 := rfl

@[simp] theorem State.resetRegisters_schedule : (s.resetRegisters).schedule = s.schedule := rfl

@[simp] theorem State.resetRegisters_stream : (s.resetRegisters).stream = [] := rfl

@[simp] theorem State.resetRegisters_taken : (s.resetRegisters).taken = [] := rfl

@[simp] theorem State.resetRegisters_cycle : (s.resetRegisters).cycle = s.cycle := rfl

/-! `tick`: the clock. -/

@[simp] theorem State.tick_buf : (s.tick).buf = s.buf := rfl

@[simp] theorem State.tick_inCnt : (s.tick).inCnt = s.inCnt := rfl

@[simp] theorem State.tick_noiseCnt : (s.tick).noiseCnt = s.noiseCnt := rfl

@[simp] theorem State.tick_malCnt : (s.tick).malCnt = s.malCnt := rfl

@[simp] theorem State.tick_ckCnt : (s.tick).ckCnt = s.ckCnt := rfl

@[simp] theorem State.tick_frameCnt : (s.tick).frameCnt = s.frameCnt := rfl

@[simp] theorem State.tick_phase : (s.tick).phase = s.phase := rfl

@[simp] theorem State.tick_outValid : (s.tick).outValid = s.outValid := rfl

@[simp] theorem State.tick_outRaw : (s.tick).outRaw = s.outRaw := rfl

@[simp] theorem State.tick_residueLen : (s.tick).residueLen = s.residueLen := rfl

@[simp] theorem State.tick_schedule : (s.tick).schedule = s.schedule.tail := rfl

@[simp] theorem State.tick_stream : (s.tick).stream = s.stream := rfl

@[simp] theorem State.tick_taken : (s.tick).taken = s.taken := rfl

@[simp] theorem State.tick_cycle : (s.tick).cycle = s.cycle + 1 := rfl

end Sys2Proof.Machine
end

