-- ==== Sys2Proof/Laws/Ops.lean ====
section
/-! SUPPORT. For each shared operation one lemma that says once everything it can do; proofs cite these instead of unfolding the operations. -/

namespace Sys2Proof.Machine

/-! Sequencing. -/

@[simp] theorem andThen_next (s : State) (f : State → Out) : andThen (.next s) f = f s := rfl

@[simp] theorem andThen_fault (r : Fault) (f : State → Out) : andThen (.fault r) f = .fault r := rfl

@[simp] theorem andThen_refused (r : Refusal) (f : State → Out) :
    andThen (.refused r) f = .refused r := rfl

/-- A sequence goes on exactly where both parts do. -/
theorem andThen_eq_next_iff (o : Out) (f : State → Out) (t : State) :
    andThen o f = .next t ↔ ∃ u, o = .next u ∧ f u = .next t := by
  cases o <;> simp

variable (ex : Instr → State → Out)

@[simp] theorem runInstrs_nil (s : State) : runInstrs ex [] s = .next s := rfl

@[simp] theorem runInstrs_cons (i : Instr) (is : List Instr) (s : State) :
    runInstrs ex (i :: is) s = andThen (ex i s) (runInstrs ex is) := rfl

theorem runInstrs_append (is js : List Instr) (s : State) :
    runInstrs ex (is ++ js) s = andThen (runInstrs ex is s) (runInstrs ex js) := by
  induction is generalizing s with
  | nil => rfl
  | cons i is ih =>
    simp only [List.cons_append, runInstrs_cons]
    cases ex i s with
    | next u => exact ih u
    | fault r => rfl
    | refused r => rfl

/-! The window at the head of a byte sequence (R53). -/

theorem window?_toList {l : List Byte} {w : Frame} (h : window? l = some w) : w.toList = l.take 16 := by
  unfold window? at h
  split at h
  · cases h
    simp
  · cases h

/-- There is a window exactly where the sequence starts with 16 bytes. -/
theorem window?_eq_some_iff (l : List Byte) (w : Frame) :
    window? l = some w ↔ ∃ rest, l = w.toList ++ rest := by
  constructor
  · intro h
    exact ⟨l.drop 16, by rw [window?_toList h, List.take_append_drop]⟩
  · rintro ⟨rest, rfl⟩
    have hl : 16 ≤ (w.toList ++ rest).length := by simp
    unfold window?
    rw [dif_pos hl]
    congr 1
    apply Vector.toList_inj.mp
    simp

@[simp] theorem window?_append (w : Frame) (rest : List Byte) : window? (w.toList ++ rest) = some w :=
  (window?_eq_some_iff _ _).mpr ⟨rest, rfl⟩

@[simp] theorem window?_eq_none_iff (l : List Byte) : window? l = none ↔ l.length < 16 := by
  unfold window?
  split <;> simp <;> omega

/-! The buffer and the registers. -/

/-- Pop goes on exactly where enough bytes are buffered (R53). -/
theorem pop_eq_next_iff (n : Nat) (s t : State) : pop n s = .next t ↔ n ≤ s.bufCnt ∧ t = s.dropHead n := by
  unfold pop
  split <;> simp_all [eq_comm]

/-- The handling of a rejection, whole: one byte popped and one counter one higher (R197). -/
theorem takeRejection_eq_next_iff (P : Params) (r : Rejection) (s t : State) :
    takeRejection P r s = .next t ↔ 1 ≤ s.bufCnt ∧ t = (s.dropHead 1).countRejection P r := by
  unfold takeRejection
  simp only [andThen_eq_next_iff, pop_eq_next_iff]
  constructor
  · rintro ⟨u, ⟨h, rfl⟩, ht⟩
    cases ht
    exact ⟨h, rfl⟩
  · rintro ⟨h, rfl⟩
    exact ⟨_, ⟨h, rfl⟩, rfl⟩

/-- Emitting a frame, whole: 16 bytes popped, the register loaded, the frame counted (R147). -/
theorem emitFrame_eq_next_iff (P : Params) (w : Frame) (s t : State) :
    emitFrame P w s = .next t ↔ 16 ≤ s.bufCnt ∧ t = (s.dropHead 16).load P w := by
  unfold emitFrame
  simp only [andThen_eq_next_iff, pop_eq_next_iff]
  constructor
  · rintro ⟨u, ⟨h, rfl⟩, ht⟩
    cases ht
    exact ⟨h, rfl⟩
  · rintro ⟨h, rfl⟩
    exact ⟨_, ⟨h, rfl⟩, rfl⟩

/-- Encode answers exactly on operands in range (R120). -/
theorem encodeFrame_eq_some_iff (c : Codec) (st : Nat) (cmd : Byte) (dn : Nat) (dv : BitVec 16) (w : Frame) :
    encodeFrame c st cmd dn dv = some w ↔
      (st ≤ 9999 ∧ dn ≤ 9999) ∧
        w = assemble c.hexCase (encodeBody c.hexCase st cmd dn dv)
          (c.checksumFn (encodeBody c.hexCase st cmd dn dv)) := by
  unfold encodeFrame
  split <;> simp_all [eq_comm]

/-- Emitting encoded fields goes on exactly where Encode answers and a window is buffered. -/
theorem emitFields_eq_next_iff (P : Params) (st : Nat) (cmd : Byte) (dn : Nat) (dv : BitVec 16) (s t : State) :
    emitFields P st cmd dn dv s = .next t ↔
      ∃ w, encodeFrame P.toCodec st cmd dn dv = some w ∧ 16 ≤ s.bufCnt ∧ t = (s.dropHead 16).load P w := by
  unfold emitFields
  cases h : encodeFrame P.toCodec st cmd dn dv <;> simp [emitFrame_eq_next_iff]

/-! The host's machine is the instance with the default parameters (R45, R9 to R12). -/

/-- The host's dispatch is the default instance's. -/
theorem exec_eq_execWith : exec = execWith defaultParams := by
  funext i s
  cases i <;> rfl

/-- The host's step is the default instance's. -/
theorem step_eq_stepWith : step = stepWith defaultParams := by
  funext s
  simp only [step, stepWith, exec_eq_execWith]

/-! The decoders. -/

/-- A transfer is selected or it is not (R87). -/
theorem selected_eq (v : BitVec 7) (i : Instr) : selected v i = [i] ∧ i ∈ transfers v ∨ selected v i = [] ∧ i ∉ transfers v := by
  unfold selected
  by_cases h : i ∈ transfers v <;> simp [h]

end Sys2Proof.Machine
end

