-- ==== Sys2Proof/Laws/PerInstr.lean ====
section
/-! SUPPORT. The per-instruction family `Encodes`: a well-formed instruction has a word, under every codec. One lemma per constructor. -/

namespace Sys2Proof.Laws

open Sys2Proof.Machine

/-- A well-formed instruction has a word (R82, R120; spec/opcode_table.json). -/
def Encodes.Statement (i : Instr) : Prop := ∀ c : Codec, i.wellFormed = true → (encode c i).isSome = true

theorem Encodes.wCurfloor (st : BitVec 14) (v : BitVec 16) : Encodes.Statement (.wCurfloor st v) := by
  intro c h
  simp only [Instr.wellFormed, decide_eq_true_eq] at h
  simp only [encode, encodeFrame]
  rw [if_pos (by omega)]
  rfl

theorem Encodes.wDestfloor (st : BitVec 14) (v : BitVec 16) : Encodes.Statement (.wDestfloor st v) := by
  intro c h
  simp only [Instr.wellFormed, decide_eq_true_eq] at h
  simp only [encode, encodeFrame]
  rw [if_pos (by omega)]
  rfl

theorem Encodes.wLoad (st : BitVec 14) (v : BitVec 16) : Encodes.Statement (.wLoad st v) := by
  intro c h
  simp only [Instr.wellFormed, decide_eq_true_eq] at h
  simp only [encode, encodeFrame]
  rw [if_pos (by omega)]
  rfl

theorem Encodes.wOtherdn (st : BitVec 14) (dn : BitVec 14) (v : BitVec 16) : Encodes.Statement (.wOtherdn st dn v) := by
  intro c h
  simp only [Instr.wellFormed, Bool.and_eq_true, decide_eq_true_eq] at h
  simp only [encode, encodeFrame]
  rw [if_pos (by omega)]
  rfl

theorem Encodes.othercmd (st : BitVec 14) (cmd : Byte) (dn : BitVec 14) (v : BitVec 16) : Encodes.Statement (.othercmd st cmd dn v) := by
  intro c h
  simp only [Instr.wellFormed, Bool.and_eq_true, decide_eq_true_eq] at h
  simp only [encode, encodeFrame]
  rw [if_pos (by omega)]
  rfl

theorem Encodes.none : Encodes.Statement .none := fun _ _ => rfl

theorem Encodes.idle : Encodes.Statement .idle := fun _ _ => rfl

theorem Encodes.finishEmpty : Encodes.Statement .finishEmpty := fun _ _ => rfl

theorem Encodes.discard : Encodes.Statement .discard := fun _ _ => rfl

theorem Encodes.wait : Encodes.Statement .wait := fun _ _ => rfl

theorem Encodes.finishPartial : Encodes.Statement .finishPartial := fun _ _ => rfl

theorem Encodes.hold : Encodes.Statement .hold := fun _ _ => rfl

theorem Encodes.emit : Encodes.Statement .emit := fun _ _ => rfl

theorem Encodes.rejectMalformed : Encodes.Statement .rejectMalformed := fun _ _ => rfl

theorem Encodes.rejectChecksum : Encodes.Statement .rejectChecksum := fun _ _ => rfl

theorem Encodes.accept : Encodes.Statement .accept := fun _ _ => rfl

theorem Encodes.fire : Encodes.Statement .fire := fun _ _ => rfl

theorem Encodes.shutdown : Encodes.Statement .shutdown := fun _ _ => rfl

theorem Encodes.reset : Encodes.Statement .reset := fun _ _ => rfl

end Sys2Proof.Laws
end

