-- ==== Sys2Proof/Tests/Slice0.lean ====
section
/-! SUPPORT. Tests on fixed values: expected results are the vectors of 95_test_vectors.md or worked out by hand from the rules; and for each statement with hypotheses a witness that they can be met. -/

namespace Sys2Proof.Tests

open Sys2Proof.Machine

/-! Frames of 95_test_vectors.md. -/

/-- V-ENC-1, `ENQW(1, 1, 0x0003)`. -/
def enc1 : Frame := #v[0x05, 0x30, 0x30, 0x30, 0x31, 0x57, 0x30, 0x30, 0x30, 0x31, 0x30, 0x30, 0x30, 0x33, 0x39, 0x43]

/-- V-ENC-3. -/
def enc3 : Frame := #v[0x05, 0x30, 0x30, 0x30, 0x31, 0x57, 0x30, 0x30, 0x30, 0x31, 0x30, 0x30, 0x30, 0x31, 0x39, 0x41]

/-- V-ENC-4, `ENQW(1, 3, 0x074E)`. -/
def enc4 : Frame := #v[0x05, 0x30, 0x30, 0x30, 0x31, 0x57, 0x30, 0x30, 0x30, 0x33, 0x30, 0x37, 0x34, 0x45, 0x42, 0x42]

/-- V-ENC-5. -/
def enc5 : Frame := #v[0x05, 0x30, 0x30, 0x30, 0x31, 0x57, 0x30, 0x30, 0x30, 0x32, 0x30, 0x30, 0x30, 0x33, 0x39, 0x44]

/-- V-ENC-7. -/
def enc7 : Frame := #v[0x05, 0x39, 0x39, 0x39, 0x39, 0x57, 0x39, 0x39, 0x39, 0x39, 0x46, 0x46, 0x46, 0x46, 0x33, 0x37]

/-- V-ENC-9. -/
def enc9 : Frame := #v[0x05, 0x30, 0x30, 0x30, 0x30, 0xFF, 0x30, 0x30, 0x30, 0x30, 0x30, 0x30, 0x30, 0x30, 0x33, 0x46]

/-- V-ENC-12. -/
def enc12 : Frame := #v[0x05, 0x30, 0x30, 0x30, 0x31, 0x05, 0x30, 0x30, 0x30, 0x31, 0x30, 0x30, 0x30, 0x33, 0x34, 0x41]

/-- V-ENC-13, lower case. -/
def enc13 : Frame := #v[0x05, 0x30, 0x30, 0x30, 0x31, 0x57, 0x30, 0x30, 0x30, 0x33, 0x30, 0x37, 0x34, 0x65, 0x64, 0x62]

/-- V-VAL-3: a letter in the station. -/
def val3 : Frame := #v[0x05, 0x30, 0x30, 0x41, 0x31, 0x57, 0x30, 0x30, 0x30, 0x31, 0x30, 0x30, 0x30, 0x33, 0x39, 0x43]

/-- V-VAL-7: a lower-case checksum digit. -/
def val7 : Frame := #v[0x05, 0x30, 0x30, 0x30, 0x31, 0x57, 0x30, 0x30, 0x30, 0x31, 0x30, 0x30, 0x30, 0x33, 0x39, 0x63]

/-- V-VAL-8: checksum 9D for 9C. -/
def val8 : Frame := #v[0x05, 0x30, 0x30, 0x30, 0x31, 0x57, 0x30, 0x30, 0x30, 0x31, 0x30, 0x30, 0x30, 0x33, 0x39, 0x44]

/-- V-VAL-16. -/
def val16 : Frame := #v[0x05, 0x30, 0x30, 0x34, 0x32, 0x57, 0x39, 0x39, 0x39, 0x39, 0x31, 0x32, 0x33, 0x34, 0x43, 0x42]

/-- The next state has the property. -/
def onNext (o : Out) (p : State → Bool) : Bool :=
  match o with
  | .next t => p t
  | _ => false

/-- The phase, buffer and output of a state, with one cycle's inputs; `out_raw` is V-ENC-1. -/
def at1 (ph : Phase) (buf : List Byte) (ov : Bool) (p : Pins) : State :=
  { State.reset with phase := ph, buf := buf, outValid := ov, outRaw := enc1, schedule := [p] }

/-- A byte offered. -/
def offer (b : Byte) : Pins := { quietPins with inValid := true, inData := b }

/-- The consumer ready. -/
def ready : Pins := { quietPins with outReady := true }

/-- Shutdown asserted. -/
def stop : Pins := { quietPins with shutdown := true }

/-- Everything asserted, reset too. -/
def allHigh : Pins := { rst := true, inValid := true, inData := 0x05, outReady := true, shutdown := true }

/-- The first 15 bytes of V-ENC-1. -/
def partial15 : List Byte := enc1.toList.take 15

/-- The default parameters with a capacity of 16. -/
def params16 : Params := { defaultParams with bufCap := ⟨16, by decide⟩ }

/-! WellFormed refuses each ill-formed term. -/

theorem test_wellFormed_refuses_station_10000 :
    (Instr.wCurfloor 10000 0).wellFormed = false ∧ (Instr.wDestfloor 10000 0).wellFormed = false ∧
    (Instr.wLoad 10000 0).wellFormed = false ∧ (Instr.wOtherdn 10000 4 0).wellFormed = false ∧
    (Instr.othercmd 10000 0 1 0).wellFormed = false := by decide

theorem test_wellFormed_refuses_dataNumber_10000 :
    (Instr.wOtherdn 1 10000 0).wellFormed = false ∧ (Instr.othercmd 1 0 10000 0).wellFormed = false := by
  decide

theorem test_wellFormed_refuses_another_class :
    (Instr.wOtherdn 1 1 0).wellFormed = false ∧ (Instr.wOtherdn 1 2 0).wellFormed = false ∧
    (Instr.wOtherdn 1 3 0).wellFormed = false ∧ (Instr.othercmd 1 0x57 4 0).wellFormed = false := by decide

theorem test_wellFormed_accepts_the_bounds :
    (Instr.wOtherdn 9999 9999 0xFFFF).wellFormed = true ∧
    (Instr.othercmd 9999 0x56 9999 0xFFFF).wellFormed = true := by decide

/-! Decoding: words written out from R70 and R87. -/

theorem test_decode_wCurfloor : decode defaultCodec (.frame enc1) = .instr (.wCurfloor 1 0x0003) := by decide

theorem test_decode_wDestfloor : decode defaultCodec (.frame enc5) = .instr (.wDestfloor 1 0x0003) := by decide

theorem test_decode_wLoad : decode defaultCodec (.frame enc4) = .instr (.wLoad 1 0x074E) := by decide

theorem test_decode_wOtherdn :
    decode defaultCodec (.frame val16) = .instr (.wOtherdn 42 9999 0x1234) := by decide

theorem test_decode_othercmd :
    decode defaultCodec (.frame enc9) = .instr (.othercmd 0 0xFF 0 0x0000) := by decide

/-- phase DONE, empty. -/
theorem test_decode_none : decode defaultCodec (.opsel 0b10100000#8) = .instr .none := by decide

/-- RUN, empty, output free. -/
theorem test_decode_idle : decode defaultCodec (.opsel 0b00100100#8) = .instr .idle := by decide

/-- DRAIN, empty. -/
theorem test_decode_finishEmpty : decode defaultCodec (.opsel 0b01100000#8) = .instr .finishEmpty := by decide

/-- DRAIN, full, no marker. -/
theorem test_decode_discard : decode defaultCodec (.opsel 0b01010100#8) = .instr .discard := by decide

/-- RUN, partial window at a marker. -/
theorem test_decode_wait : decode defaultCodec (.opsel 0b00001100#8) = .instr .wait := by decide

/-- DRAIN, partial window. -/
theorem test_decode_finishPartial : decode defaultCodec (.opsel 0b01001000#8) = .instr .finishPartial := by decide

/-- RUN, full window, output busy. -/
theorem test_decode_hold : decode defaultCodec (.opsel 0b00011001#8) = .instr .hold := by decide

/-- DRAIN, full window, OK. -/
theorem test_decode_emit : decode defaultCodec (.opsel 0b01011100#8) = .instr .emit := by decide

/-- RUN, full window, MALFORMED. -/
theorem test_decode_rejectMalformed : decode defaultCodec (.opsel 0b00011101#8) = .instr .rejectMalformed := by decide

/-- RUN, full window, CHECKSUM_MISMATCH. -/
theorem test_decode_rejectChecksum : decode defaultCodec (.opsel 0b00011110#8) = .instr .rejectChecksum := by decide

/-- `in_valid` and `in_ready`. -/
theorem test_decode_accept : decode defaultCodec (.xsel 0b0110000#7) = .instr .accept := by decide

/-- `out_valid` and `out_ready`. -/
theorem test_decode_fire : decode defaultCodec (.xsel 0b0001100#7) = .instr .fire := by decide

/-- `shutdown` in RUN. -/
theorem test_decode_shutdown : decode defaultCodec (.xsel 0b0000011#7) = .instr .shutdown := by decide

/-- everything, overridden by `rst`. -/
theorem test_decode_reset : decode defaultCodec (.xsel 0b1111111#7) = .instr .reset := by decide

theorem test_decode_rejects_by_name :
    decode defaultCodec (.frame val3) = .rejected .malformed ∧
    decode defaultCodec (.frame val8) = .rejected .checksumMismatch ∧
    decode defaultCodec (.opsel 0b11001100#8) = .rejected .noScanRow ∧
    decode defaultCodec (.opsel 0b00011111#8) = .rejected .noScanRow ∧
    decode defaultCodec (.xsel 0b0000000#7) = .rejected .noTransferRow ∧
    decode defaultCodec (.xsel 0b0111111#7) = .rejected .severalTransfers ∧
    decodeBytes defaultCodec partial15 = .rejected .wrongLength := by decide

theorem test_encode_vectors :
    encode defaultCodec (.wCurfloor 1 0x0003) = some (.frame enc1) ∧
    encode defaultCodec (.wOtherdn 9999 9999 0xFFFF) = some (.frame enc7) ∧
    encode { defaultCodec with hexCase := .lower } (.wLoad 1 0x074E) = some (.frame enc13) := by decide

/-- Table words; the 8-bit words are the rows' `match` values. -/
theorem test_tableWords :
    decodeTableWord 128 0x05303030315730303031303030333943 = some (.wCurfloor 1 0x0003) ∧
    decodeTableWord 128 0x05303030315730303032303030333944 = some (.wDestfloor 1 0x0003) ∧
    decodeTableWord 8 0x80 = some .none ∧ decodeTableWord 8 0x00 = some .discard ∧
    decodeTableWord 8 0x48 = some .finishPartial ∧ decodeTableWord 8 0x1E = some .rejectChecksum ∧
    decodeTableWord 8 0x30 = some .accept ∧ decodeTableWord 8 0x0C = some .fire ∧
    decodeTableWord 8 0x03 = some .shutdown ∧ decodeTableWord 8 0x40 = some .reset := by decide

/-! Validator, encoder, interpretation (B.2, B.4, B.5). -/

theorem test_validate_vectors :
    validate defaultCodec enc1 = .ok ⟨1, 0x57, 1, 0x0003, 0x9C⟩ ∧
    validate defaultCodec enc12 = .ok ⟨1, 0x05, 1, 0x0003, 0x4A⟩ ∧
    validate defaultCodec val7 = .malformed ∧
    validate defaultCodec val8 = .checksumMismatch ∧
    validate defaultCodec enc13 = .malformed ∧
    validate { defaultCodec with hexCase := .lower } enc13 = .ok ⟨1, 0x57, 3, 0x074E, 0xDB⟩ ∧
    validate { defaultCodec with hexCase := .lower } enc4 = .malformed := by decide

theorem test_ports_pack_high_byte_first :
    pack enc1 = 0x05303030315730303031303030333943#128 ∧
    validatorPorts defaultCodec 0x05303030315730303031303030333943#128 =
      (0, some ⟨1, 0x57, 1, 0x0003, 0x9C⟩) := by decide

theorem test_interpret_vectors :
    interpret ⟨1, 0x57, 1, 0xFFFF, 0⟩ = .currentFloor ⟨1, true⟩ ∧
    interpret ⟨1, 0x57, 1, 0x8000, 0⟩ = .currentFloor ⟨32768, true⟩ ∧
    interpret ⟨1, 0x57, 2, 0x0000, 0⟩ = .noDestination ∧
    interpret ⟨1, 0x57, 2, 0xFFFE, 0⟩ = .destination ⟨2, true⟩ ∧
    interpret ⟨1, 0x57, 3, 0x074E, 0⟩ = .loadKg 1870 ∧ floorText ⟨1, true⟩ = "B1F" := by decide

/-! The scan (C): V-FR-5 and V-FR-13. -/

theorem test_scan_keeps_a_truncated_frame :
    scan defaultCodec (enc1.toList.take 10) = ⟨[], 0, 0, 0, enc1.toList.take 10⟩ := by decide

theorem test_scan_rescans_an_inner_marker :
    scan defaultCodec ((mutate enc1 10 0x05).toList ++ enc4.toList) = ⟨[enc4], 14, 2, 0, []⟩ := by decide

/-! Single steps: the vectors V-CY of section D. -/

theorem test_step_idle_accepts_first_byte :
    onNext (step (at1 .run [] false (offer 0x05)))
      (fun t => t.buf == [0x05] && t.inCnt == 1 && t.noiseCnt == 0 && t.phase == .run) = true := by decide

theorem test_step_discard_pops_before_the_push :
    onNext (step (at1 .run [0x41, 0x05] false (offer 0x30)))
      (fun t => t.buf == [0x05, 0x30] && t.noiseCnt == 1 && t.inCnt == 1) = true := by decide

theorem test_step_wait_takes_the_16th_byte :
    onNext (step (at1 .run partial15 false (offer 0x43)))
      (fun t => t.buf == enc1.toList && t.frameCnt == 0 && !t.outValid) = true := by decide

theorem test_step_emit :
    onNext (step (at1 .run enc4.toList false quietPins))
      (fun t => t.buf == [] && t.outRaw == enc4 && t.outValid && t.frameCnt == 1) = true := by decide

theorem test_step_emit_with_fire_keeps_out_valid :
    onNext (step (at1 .run enc4.toList true ready))
      (fun t => t.outRaw == enc4 && t.outValid && t.taken == [enc1]) = true := by decide

theorem test_step_hold_refuses_input_when_full :
    onNext (step (at1 .run (enc4.toList ++ enc4.toList) true (offer 0x41)))
      (fun t => t.buf == enc4.toList ++ enc4.toList && t.inCnt == 0 && t.outRaw == enc1 && t.outValid)
      = true := by decide

theorem test_step_rejectMalformed :
    onNext (step (at1 .run val3.toList false quietPins))
      (fun t => t.buf == val3.toList.tail && t.malCnt == 1 && t.ckCnt == 0 && !t.outValid) = true := by decide

theorem test_step_rejectChecksum_with_fire :
    onNext (step (at1 .run val8.toList true ready))
      (fun t => t.buf == val8.toList.tail && t.ckCnt == 1 && t.malCnt == 0 && !t.outValid) = true := by decide

theorem test_step_shutdown_cycle_still_accepts :
    onNext (step (at1 .run [0x05, 0x30] false { offer 0x30 with shutdown := true }))
      (fun t => t.buf == [0x05, 0x30, 0x30] && t.phase == .drain && t.inCnt == 1) = true := by decide

theorem test_step_finishPartial_refuses_input :
    onNext (step (at1 .drain [0x05, 0x30, 0x30, 0x30] false (offer 0x30)))
      (fun t => t.buf == [] && t.phase == .done && t.residueLen == 4 && t.inCnt == 0 && t.doneFlag)
      = true := by decide

theorem test_step_finishEmpty :
    onNext (step (at1 .drain [] false quietPins)) (fun t => t.phase == .done && t.residueLen == 0) = true := by
  decide

theorem test_step_none_still_fires :
    onNext (step (at1 .done [] true ready)) (fun t => !t.outValid && t.doneFlag && t.taken == [enc1]) = true := by
  decide

theorem test_step_reset_overrides :
    onNext (step (at1 .run enc1.toList true allHigh))
      (fun t => t.buf == [] && !t.outValid && t.taken == [] && t.inCnt == 0 && t.phase == .run) = true := by decide

/-- V-CY-22: a capacity of 16. -/
theorem test_step_no_accept_at_capacity :
    onNext
      (stepWith params16 (at1 .run (0x41 :: List.replicate 15 0x30) false (offer 0x05)))
      (fun t => t.buf == List.replicate 15 0x30 && t.inCnt == 0 && t.noiseCnt == 1) = true := by decide

/-- V-WR-1 at its last byte: a counter of 2 bits wraps. -/
theorem test_step_counter_wraps :
    onNext
      (stepWith { defaultParams with cntW := ⟨2, by decide⟩ }
        { at1 .run [0x41] false quietPins with noiseCnt := 3 })
      (fun t => t.noiseCnt == 0) = true := by decide

/-- The step runs the placed word. -/
theorem test_step_runs_placed_words :
    onNext (step (State.reset.withFetchWord 128 0x05303030315730303031303030333943))
      (fun t => t.outRaw == enc1 && t.outValid && t.frameCnt == 1) = true ∧
    onNext (step (State.reset.withFetchWord 8 0x1D)) (fun t => t.malCnt == 1) = true ∧
    onNext (step (State.reset.withFetchWord 8 0x48)) (fun t => t.residueLen == 1 && t.phase == .done) = true ∧
    onNext (step (State.reset.withFetchWord 8 0x30)) (fun t => t.buf == [marker]) = true ∧
    onNext (step (State.reset.withFetchWord 8 0x0C)) (fun t => t.taken.length == 1) = true ∧
    onNext (step (State.reset.withFetchWord 8 0x03)) (fun t => t.phase == .drain) = true := by decide

/-! Safe states for the witnesses: one noise byte buffered, and a finished run that dropped one byte. -/

/-- One byte accepted and buffered. -/
def oneByte : State :=
  { at1 .run [0x41] false quietPins with inCnt := 1, stream := [0x41] }

/-- A run finished on the stream 05. -/
def finished : State :=
  { at1 .done [] false quietPins with inCnt := 1, stream := [0x05], residueLen := 1#4 }

theorem oneByte_inv : oneByte.Inv defaultParams where
  bufFits := by decide
  phaseLegal := by decide
  residueFits := by decide
  doneEmpty := by decide
  drainNotReady := by decide
  outputValidates := by decide
  conservation := by decide
  residueOnce := by decide
  countersFit := ⟨by decide, by decide, by decide, by decide, by decide⟩

theorem oneByte_followsScan : oneByte.FollowsScan defaultParams :=
  ⟨.empty,
    { frames := rfl
      inCount := by decide
      noiseCount := by decide
      malCount := by decide
      ckCount := by decide
      frameCount := by decide
      bytes := by decide
      scanning := fun _ _ => rfl
      finished := fun h => absurd h (by decide) }⟩

theorem oneByte_safe : oneByte.Safe defaultParams := ⟨oneByte_inv, oneByte_followsScan⟩

theorem finished_inv : finished.Inv defaultParams where
  bufFits := by decide
  phaseLegal := by decide
  residueFits := by decide
  doneEmpty := by decide
  drainNotReady := by decide
  outputValidates := by decide
  conservation := by decide
  residueOnce := by decide
  countersFit := ⟨by decide, by decide, by decide, by decide, by decide⟩

theorem finished_followsScan : finished.FollowsScan defaultParams :=
  ⟨.empty,
    { frames := rfl
      inCount := by decide
      noiseCount := by decide
      malCount := by decide
      ckCount := by decide
      frameCount := by decide
      bytes := by decide
      scanning := fun h => absurd rfl h
      finished := fun _ => ⟨[0x05], by decide, by decide⟩ }⟩

theorem finished_safe : finished.Safe defaultParams := ⟨finished_inv, finished_followsScan⟩

theorem finished_safe16 : finished.Safe params16 :=
  ⟨{ bufFits := by decide
     phaseLegal := by decide
     residueFits := by decide
     doneEmpty := by decide
     drainNotReady := by decide
     outputValidates := by decide
     conservation := by decide
     residueOnce := by decide
     countersFit := ⟨by decide, by decide, by decide, by decide, by decide⟩ },
   ⟨.empty,
    { frames := rfl
      inCount := by decide
      noiseCount := by decide
      malCount := by decide
      ckCount := by decide
      frameCount := by decide
      bytes := by decide
      scanning := fun h => absurd rfl h
      finished := fun _ => ⟨[0x05], by decide, by decide⟩ }⟩⟩

/-- A checksum function that notices every changed byte: the exclusive or of the 13 bytes. -/
def xor13 (b : Body) : Byte :=
  b[0] ^^^ b[1] ^^^ b[2] ^^^ b[3] ^^^ b[4] ^^^ b[5] ^^^ b[6] ^^^ b[7] ^^^ b[8] ^^^ b[9] ^^^ b[10] ^^^ b[11] ^^^ b[12]

theorem xor13_sensitive : SingleByteSensitive xor13 := by
  intro b k x hx h
  apply hx
  fin_cases k <;> simpa [xor13, Vector.getElem_set] using h

/-- The codec of that function. -/
def xorCodec : Codec := { checksumFn := xor13, hexCase := .upper }

/-- A frame under that codec, command 0x57. -/
def xorFrame : Frame := (encodeFrame xorCodec 1 cmdW 1 0x0003).getD enc1

/-! Witnesses: the hypotheses of each statement can be met, at the boundaries of its clauses. -/

theorem test_witness_SelectorRowsApplyExactlyWhen :
    ⟨0x20#8, 0xE0#8, .idle⟩ ∈ opselRows ∧ rowApplies 0x3F#8 ⟨0x20#8, 0xE0#8, .idle⟩ = true := by decide

theorem test_witness_SelectionIsFirstMatchingRow : (at1 .done [] true ready).phase ≠ .reserved := by decide

theorem test_witness_DecodeOfEncodeIsIdentity :
    (Instr.wCurfloor 9999 0xFFFF).wellFormed = true ∧ (Instr.wOtherdn 0 9999 0).wellFormed = true ∧
    (Instr.othercmd 9999 0x58 1 0).wellFormed = true ∧ Instr.hold.wellFormed = true := by decide

theorem test_witness_EncodeOfDecodedFrameIsTheFrame :
    decodeFrame defaultCodec enc7 = .instr (.wOtherdn 9999 9999 0xFFFF) := by decide

theorem test_witness_FrameMatchesItsTableRow :
    decodeFrame defaultCodec enc9 = .instr (.othercmd 0 0xFF 0 0) := by decide

/-- Station and data number at both ends of their range. -/
theorem test_witness_ValidateEncodeRoundTrip :
    (0 ≤ 9999 ∧ 9999 ≤ 9999) ∧ resultOf (validate defaultCodec enc7) = .ok ∧
    encodeFrame defaultCodec 9999 0x57 9999 0xFFFF = some enc7 := by decide

/-- A valid window, and the digits at the ends of each class. -/
theorem test_witness_FieldsAreTheirDigitsValues :
    validate defaultCodec enc7 = .ok ⟨9999, 0x57, 9999, 0xFFFF, 0x37⟩ ∧
    digit 0x30 = 0 ∧ digit 0x39 = 9 ∧ digit 0x41 = 10 ∧ digit 0x46 = 15 ∧ digit 0x61 = 10 ∧ digit 0x66 = 15 := by
  decide

/-- Offsets 0, 1, 13, 14 and 15, with a byte in its class and one outside it; under `xorCodec` the
premise on the checksum function holds (`xor13_sensitive`). -/
theorem test_witness_ChangedByteIsRejected :
    SingleByteSensitive xorCodec.checksumFn ∧ resultOf (validate xorCodec xorFrame) = .ok ∧
    resultOf (validate xorCodec (mutate xorFrame 0 0x06)) = .malformed ∧
    resultOf (validate xorCodec (mutate xorFrame 1 0x31)) = .checksumMismatch ∧
    resultOf (validate xorCodec (mutate xorFrame 1 0x41)) = .malformed ∧
    resultOf (validate xorCodec (mutate xorFrame 5 0x05)) = .checksumMismatch ∧
    resultOf (validate xorCodec (mutate xorFrame 13 0x46)) = .checksumMismatch ∧
    resultOf (validate xorCodec (mutate xorFrame 13 0x47)) = .malformed ∧
    resultOf (validate xorCodec (mutate xorFrame 14 0x38)) = .checksumMismatch ∧
    resultOf (validate xorCodec (mutate xorFrame 15 0x61)) = .malformed :=
  ⟨xor13_sensitive, by decide, by decide, by decide, by decide, by decide, by decide, by decide, by decide,
    by decide⟩

theorem test_witness_SumEightNoticesEveryChangedByte :
    (0x31#8 ≠ (body enc1)[(0 : Fin 13)]) ∧ (0x34#8 ≠ (body enc1)[(12 : Fin 13)]) := by decide

/-- The first refused value, in each operand. -/
theorem test_witness_OutOfRangeOperandsAreRefused :
    9999 < (10000#14).toNat ∧ encodeFrame defaultCodec 10000 0 0 0 = none ∧
    encodeFrame defaultCodec 0 0 10000 0 = none ∧ encodeFrame defaultCodec 9999 0 9999 0 ≠ none := by decide

/-- The ends of each range of the data value, and the data numbers next to 1 and 3. -/
theorem test_witness_DataValueIsReadByDataNumber :
    interpret ⟨1, 0x57, 1, 0x0000, 0⟩ = .currentFloor ⟨0, false⟩ ∧
    interpret ⟨1, 0x57, 1, 0x7FFF, 0⟩ = .currentFloor ⟨32767, false⟩ ∧
    interpret ⟨1, 0x57, 1, 0xFFFF, 0⟩ = .currentFloor ⟨1, true⟩ ∧
    interpret ⟨1, 0x57, 2, 0x0001, 0⟩ = .destination ⟨1, false⟩ ∧
    interpret ⟨1, 0x57, 2, 0x8000, 0⟩ = .destination ⟨32768, true⟩ ∧
    interpret ⟨1, 0x57, 3, 0xFFFF, 0⟩ = .loadKg 65535 ∧
    interpret ⟨1, 0x57, 0, 0x0001, 0⟩ = .uninterpreted ∧
    interpret ⟨1, 0x57, 4, 0x0001, 0⟩ = .uninterpreted := by decide

theorem test_witness_FrameInstructionsEmitTheirFrame :
    (9999#14).toNat ≤ 9999 ∧ 16 ≤ (at1 .run enc1.toList false quietPins).buf.length := by decide

theorem test_witness_EmitIsTheFrameInstruction :
    (at1 .run (enc7.toList ++ [0x05]) false quietPins).buf = enc7.toList ++ [0x05] ∧
    decodeFrame defaultCodec enc7 =
      .instr (.wOtherdn 9999 9999 0xFFFF) := by decide

theorem test_witness_HeadByteOperationsPopOneAndCount :
    (at1 .run [0x41] false quietPins).buf = 0x41 :: [] ∧
    onNext (exec .rejectChecksum (at1 .run [0x41] false quietPins)) (fun t => t.buf == [] && t.ckCnt == 1)
      = true := by decide

theorem test_witness_EmitLoadsTheWindow :
    (at1 .run (enc1.toList ++ []) false quietPins).buf = enc1.toList ++ [] ∧
    onNext (exec .emit (at1 .run enc1.toList false quietPins)) (fun t => t.outRaw == enc1) = true := by decide

/-- An empty buffer, and the longest residue. -/
theorem test_witness_FinishDropsTheResidue :
    (at1 .drain [] false quietPins).buf = [] ∧ (at1 .drain partial15 false quietPins).buf.length = 15 ∧
    onNext (exec .finishPartial (at1 .drain partial15 false quietPins)) (fun t => t.residueLen == 15#4)
      = true := by decide

/-- Every clause, with one byte of room and with none. -/
theorem test_witness_TransfersHaveTheirEffect :
    onNext (exec .accept (at1 .run (List.replicate 31 0x41) false (offer 0x05))) (fun t => t.buf.length == 32)
      = true ∧
    onNext (exec .accept (at1 .run (List.replicate 32 0x41) false (offer 0x05))) (fun t => t.buf.length == 32)
      = true ∧
    onNext (exec .accept (at1 .drain [] false (offer 0x05))) (fun t => t.buf == []) = true ∧
    onNext (exec .fire (at1 .run [] true ready)) (fun t => !t.outValid && t.taken == [enc1]) = true ∧
    onNext (exec .fire (at1 .run [] true quietPins)) (fun t => t.outValid && t.taken == []) = true ∧
    onNext (exec .shutdown (at1 .run [] true stop)) (fun t => t.phase == .drain) = true ∧
    onNext (exec .shutdown (at1 .done [] true stop)) (fun t => t.phase == .done) = true := by decide

theorem test_witness_StopsAreUnderrunAndReservedPhase :
    (at1 .run [] false quietPins).buf = [] ∧ (at1 .run partial15 false quietPins).buf.length < 16 ∧
    (at1 .reserved [] false quietPins).pins.rst = false ∧ (at1 .reserved [] false allHigh).pins.rst = true := by
  decide

/-- One state for each of the three clauses. -/
theorem test_witness_StepRunsTheDecodedInstruction :
    (at1 .run [] false allHigh).pins.rst = true ∧
    (at1 .run [0x41] false quietPins).pins.rst = false ∧
    decodeOpsel ((at1 .run [0x41] false quietPins).opsel defaultCodec) = some .discard ∧
    (at1 .drain (enc1.toList ++ []) true ready).pins.rst = false ∧
    (at1 .drain (enc1.toList ++ []) true ready).pins.outReady = true ∧
    decodeFrame defaultCodec enc1 = .instr (.wCurfloor 1 0x0003) := by
  decide

theorem test_witness_StepIsTheReferenceStep : finished.phase ≠ .reserved ∧ finished.CountersFit defaultParams :=
  ⟨by decide, finished_inv.countersFit⟩

theorem test_witness_ResetOverridesEverything :
    (at1 .drain enc1.toList true allHigh).schedule = allHigh :: [] ∧ allHigh.rst = true := by decide

/-- Offered with one byte of room, and offered to a full buffer. -/
theorem test_witness_OfferedByteIsAcceptedExactlyWhenReady :
    (at1 .run (List.replicate 31 0x41) false (offer 0x05)).pins.rst = false ∧
    (at1 .run (List.replicate 31 0x41) false (offer 0x05)).accepts defaultParams = true ∧
    (at1 .run (List.replicate 32 0x41) false (offer 0x05)).accepts defaultParams = false := by decide

/-- One state for each count of popped bytes. -/
theorem test_witness_PopsPrecedeThePush :
    (at1 .drain partial15 false quietPins).pins.rst = false ∧
    act defaultCodec (at1 .run [0x41] false quietPins) = .discard ∧ act defaultCodec (at1 .run enc1.toList false quietPins) = .emit ∧
    act defaultCodec (at1 .drain partial15 false quietPins) = .finishPartial ∧
    act defaultCodec (at1 .run partial15 false quietPins) = .wait := by decide

theorem test_witness_ExactlyTheOperationsCounterRises :
    (at1 .run val3.toList false quietPins).phase ≠ .reserved ∧
    act defaultCodec (at1 .run val3.toList false quietPins) = .rejectMalformed ∧
    act defaultCodec (at1 .run val8.toList false quietPins) = .rejectChecksum := by decide

theorem test_witness_FireDeliversTheFrameOfTheCyclesStart :
    (at1 .run enc4.toList true ready).pins.rst = false ∧ act defaultCodec (at1 .run enc4.toList true ready) = .emit ∧
    (at1 .run [] true ready).fires = true ∧ (at1 .run [] true quietPins).fires = false := by decide

/-- RUN with shutdown and a byte, DRAIN, and DONE. -/
theorem test_witness_ShutdownStartsDrainingFromRunOnly :
    (at1 .run [] false { offer 0x05 with shutdown := true }).accepts defaultParams = true ∧
    (at1 .drain [] false quietPins).pins.rst = false ∧ (at1 .done [] false stop).phase = .done := by decide

/-- No residue, one byte, and the longest residue; a pending frame taken, and one not taken. -/
theorem test_witness_FinishEndsTheDrain :
    (at1 .drain [] false quietPins).buf = [] ∧ (at1 .drain [0x05] true ready).buf = 0x05#8 :: [] ∧
    (at1 .drain partial15 false quietPins).buf = 0x05#8 :: partial15.tail ∧ partial15.tail.length = 14 ∧
    (at1 .drain [0x05] true ready).pins.outReady = true ∧
    (at1 .drain [0x05] true quietPins).pins.outReady = false := by decide

theorem test_witness_DoneLastsUntilReset :
    (at1 .done [] true ready).phase = .done ∧ (at1 .done [] true ready).pins.rst = false := by decide

theorem test_witness_PartialWindowWaitsInRun :
    (at1 .run [] false quietPins).buf = [] ∧ (at1 .run partial15 true ready).phase = .run ∧
    (at1 .run partial15 true ready).buf = 0x05#8 :: partial15.tail ∧ partial15.tail.length = 14 := by decide

/-- Head bytes on both sides of the marker. -/
theorem test_witness_NoiseByteIsDiscardedAndCounted :
    (at1 .run [0x04] false quietPins).buf = 0x04#8 :: [] ∧ (0x04#8 ≠ 0x05#8) ∧ (0x06#8 ≠ 0x05#8) ∧
    (at1 .drain [0x06] false quietPins).phase = .drain := by decide

/-- A window just complete, and a full buffer. -/
theorem test_witness_FullWindowHoldsWhileOutputBusy :
    (at1 .run enc4.toList true quietPins).buf = 0x05#8 :: enc4.toList.tail ∧ enc4.toList.tail.length = 15 ∧
    (at1 .run enc4.toList true quietPins).outValid = true ∧
    (at1 .run enc4.toList true quietPins).pins.outReady = false ∧
    (at1 .run (enc4.toList ++ enc4.toList) true quietPins).buf.length = 32 := by decide

theorem test_witness_ValidWindowIsEmitted :
    (at1 .drain (enc4.toList ++ [0x05]) true ready).buf = enc4.toList ++ [0x05] ∧
    (at1 .drain (enc4.toList ++ [0x05]) true ready).pins.outReady = true ∧
    resultOf (validate defaultCodec enc4) = .ok := by decide

/-- One window for each cause. -/
theorem test_witness_FailedWindowLosesOneByte :
    val3[0] = 0x05#8 ∧ val8[0] = 0x05#8 ∧
    resultOf (validate defaultCodec val3) = .malformed ∧
    resultOf (validate defaultCodec val8) = .checksumMismatch ∧
    (at1 .run (val8.toList ++ []) false quietPins).buf = val8.toList ++ [] := by decide

/-- A state and inputs for each clause. -/
theorem test_witness_InputsAreReadOnlyWhereTheirRulesSay :
    (at1 .run [] false quietPins).schedule = quietPins :: [] ∧ quietPins.inValid = false ∧
    (at1 .run (List.replicate 32 0x41) false (offer 0x05)).inReady defaultParams = false ∧ allHigh.rst = true ∧
    (at1 .run [] false ready).outValid = false ∧ (at1 .drain [] false stop).phase ≠ .run := by decide

theorem test_witness_HeadPositionMovesByThePops :
    (at1 .drain partial15 false quietPins).phase ≠ .reserved ∧
    (at1 .drain partial15 false quietPins).pins.rst = false ∧
    popCount (at1 .drain partial15 false quietPins) .finishPartial = 15 := by decide

/-- Another checksum function, letter case, capacity and counter width: a step of that instance. -/
theorem test_stepWith_other_parameters :
    onNext
      (stepWith { toCodec := { xorCodec with hexCase := .lower }, bufCap := ⟨20, by decide⟩, cntW := ⟨1, by decide⟩ }
        { at1 .run xorFrame.toList false quietPins with frameCnt := 1 })
      (fun t => t.outRaw == xorFrame && t.frameCnt == 0) = true := by decide

theorem test_witness_StepKeepsTheInvariants :
    oneByte.Inv defaultParams ∧ (∃ t, stepWith defaultParams oneByte = .next t) ∧ ∃ t, step oneByte = .next t :=
  ⟨oneByte_inv, ⟨_, rfl⟩, _, rfl⟩

theorem test_witness_StepFollowsTheReferenceScan :
    oneByte.Inv defaultParams ∧ oneByte.FollowsScan defaultParams ∧
    (∃ t, stepWith defaultParams oneByte = .next t) ∧ ∃ t, step oneByte = .next t :=
  ⟨oneByte_inv, oneByte_followsScan, ⟨_, rfl⟩, _, rfl⟩

theorem test_witness_NoInputSequenceFails : oneByte.Safe defaultParams := oneByte_safe

/-- A running state that has not wrapped, and a finished one. -/
theorem test_witness_SafeStatesMeetTheListedInvariants :
    oneByte.Safe defaultParams ∧ oneByte.stream.length < 2 ^ defaultParams.cntW.val ∧ finished.Safe defaultParams ∧ finished.phase = .done :=
  ⟨oneByte_safe, by decide, finished_safe, rfl⟩

theorem test_witness_FramesTakenAreAPrefixOfTheScan : oneByte.Safe defaultParams := oneByte_safe

/-- The residue held at WAIT: the stream 05, not finished. -/
def waiting : State := { at1 .run [0x05] false quietPins with inCnt := 1, stream := [0x05] }

theorem waiting_safe : waiting.Safe defaultParams :=
  ⟨{ bufFits := by decide
     phaseLegal := by decide
     residueFits := by decide
     doneEmpty := by decide
     drainNotReady := by decide
     outputValidates := by decide
     conservation := by decide
     residueOnce := by decide
     countersFit := ⟨by decide, by decide, by decide, by decide, by decide⟩ },
   ⟨.empty,
    { frames := rfl
      inCount := by decide
      noiseCount := by decide
      malCount := by decide
      ckCount := by decide
      frameCount := by decide
      bytes := by decide
      scanning := fun _ _ => rfl
      finished := fun h => absurd h (by decide) }⟩⟩

/-- A finished state with `done`, and a RUN state at WAIT. -/
theorem test_witness_CompletionLaw :
    finished.Safe defaultParams ∧ finished.doneFlag = true ∧ waiting.Safe defaultParams ∧ waiting.phase = .run ∧ act defaultCodec waiting = .wait :=
  ⟨finished_safe, by decide, waiting_safe, rfl, by decide⟩

/-- A finished state of two instances of different capacities. -/
theorem test_witness_ResultDependsOnlyOnTheStream :
    finished.Safe defaultParams ∧ finished.Safe params16 ∧ finished.doneFlag = true ∧
    defaultParams.toCodec = params16.toCodec ∧ defaultParams.cntW = params16.cntW ∧
    defaultParams.bufCap ≠ params16.bufCap :=
  ⟨finished_safe, finished_safe16, by decide, rfl, rfl, by decide⟩

theorem test_witness_ConservationOfBytes :
    oneByte.Safe defaultParams ∧ oneByte.stream.length < 2 ^ defaultParams.cntW.val ∧ oneByte.phase ≠ .done :=
  ⟨oneByte_safe, by decide, by decide⟩

theorem test_witness_RecoveryLaw :
    resultOf (validate defaultCodec enc1) = .ok ∧ isHex defaultCodec.hexCase enc1[5] = false := by decide

/-- Two frames with noise between; no window inside the noise. -/
theorem test_witness_ResyncBound :
    (∀ x ∈ [([0x41, 0x05], enc1), ([], enc4)],
      resultOf (validate defaultCodec x.2) = .ok ∧ x.2[5] = 0x57#8) ∧
    (scan defaultCodec (([([0x41#8, 0x05#8], enc1), ([], enc4)].flatMap fun x => x.1 ++ x.2.toList) ++ [0x05])).frames
      = [enc1, enc4] := by decide

/-- No window fits into noise of fewer than 16 bytes. -/
theorem test_witness_ResyncBound_noise (j : Nat) (w : Frame) : window? ([0x41#8, 0x05#8].drop j) ≠ some w := by
  intro h
  obtain ⟨rest, hr⟩ := (window?_eq_some_iff _ _).mp h
  have := congrArg List.length hr
  simp only [List.length_drop, List.length_append, Vector.length_toList, List.length_cons, List.length_nil] at this
  omega

/-- Byte 0, a checksummed byte and a checksum byte changed. -/
theorem test_witness_CorruptedFrameDoesNotLoseTheNext :
    SingleByteSensitive xorCodec.checksumFn ∧ resultOf (validate xorCodec xorFrame) = .ok ∧
    xorFrame[5] = 0x57#8 ∧ (0x06#8 ≠ xorFrame[0]) ∧ (0x05#8 ≠ xorFrame[10]) ∧ (0x05#8 ≠ xorFrame[15]) :=
  ⟨xor13_sensitive, by decide, by decide, by decide, by decide, by decide⟩

/-- An empty buffer: three cycles. -/
theorem test_witness_ShutdownCompletes :
    let p : Pins := { ready with shutdown := true }
    let s : State := { at1 .run [] false p with schedule := p :: [ready, ready] ++ [] }
    s.phase = .run ∧ s.schedule = p :: [ready, ready] ++ [] ∧ [ready, ready].length = s.buf.length + 2 ∧
    p.shutdown = true ∧ ∀ q ∈ p :: [ready, ready], q.rst = false ∧ q.outReady = true := by decide

theorem test_witness_FrameIsEmittedTheCycleAfterItsLastByte :
    let s : State := { at1 .run partial15 true (offer 0x43) with schedule := [offer 0x43, ready] }
    s.phase = .run ∧ s.schedule = offer 0x43 :: ready :: [] ∧ (offer 0x43).rst = false ∧ ready.rst = false ∧
    (offer 0x43).inValid = true ∧ enc1.toList = s.buf ++ [(offer 0x43).inData] ∧
    resultOf (validate defaultCodec enc1) = .ok ∧ ready.outReady = true := by decide

/-- Pending and not taken, pending and taken, and nothing pending. -/
theorem test_witness_PendingFrameIsStableUntilItFires :
    (at1 .run [] true quietPins).pins.rst = false ∧ (at1 .run [] true quietPins).pins.outReady = false ∧
    (at1 .run [] true ready).pins.outReady = true ∧ ((at1 .run [] false quietPins).outputs defaultParams).frame = none := by decide

/-- 16 bytes buffered, capacity 32. -/
theorem test_witness_ReadyConsumerNeverStallsTheInput :
    let s : State := at1 .run enc1.toList true ready
    s.phase ≠ .reserved ∧ s.pins.rst = false ∧ s.pins.outReady = true ∧ s.buf.length = 16 ∧
    17 ≤ defaultParams.bufCap.val := by decide

/-- Capacities 16 and 32: ready under both with 15 bytes, and under neither with 32. -/
theorem test_witness_CapacityIsReadOnlyThroughReady :
    params16.toCodec = defaultParams.toCodec ∧ params16.cntW = defaultParams.cntW ∧
    params16.bufCap ≠ defaultParams.bufCap ∧
    (at1 .run partial15 false (offer 0x43)).inReady params16 = true ∧
    (at1 .run partial15 false (offer 0x43)).inReady defaultParams = true ∧
    (at1 .run (List.replicate 32 0x41) false (offer 0x05)).inReady params16 = false ∧
    (at1 .run (List.replicate 32 0x41) false (offer 0x05)).inReady defaultParams = false :=
  ⟨rfl, rfl, by decide, by decide, by decide, by decide, by decide⟩

end Sys2Proof.Tests
end

section
/-! The scope of the model (00_scope.md R9 to R12): the host's machine among the instances of the block. -/

namespace Sys2Proof.Machine

/-- A machine's run is fixed by its step: replacing the step by an equal one changes no run. -/
theorem run_eq_run_of_step_eq {M : Host.Core} {f : M.State → Host.Outcome M.State M.Fault M.Refusal}
    (hstep : M.step = f) (k : Nat) (s : M.State) :
    Host.Core.run M k s = Host.Core.run { M with step := f } k s := by
  subst hstep
  rfl

/-- Settles O41: `coreWith` replaces only the host's step, and by an equal one (`step_eq_stepWith`, whose
content is that the host's dispatch agrees with the default instance's on every instruction). -/
theorem hostIsTheDefaultInstance : Obligations.HostIsTheDefaultInstance := by
  unfold Obligations.HostIsTheDefaultInstance
  intro k s
  have hstep : Sys2Proof.core.step = stepWith defaultParams := step_eq_stepWith
  exact run_eq_run_of_step_eq hstep k s

end Sys2Proof.Machine
end

section
/-! The scan operation of a cycle: one case per row of the operation map (30_encoding.md R84, R87;
41_framer.md R142). -/

namespace Sys2Proof.Machine

/-- RUN or DRAIN, the phases that scan (R142). -/
def State.Scanning (s : State) : Prop := s.phase = .run ∨ s.phase = .drain

/-- The row of the operation map that applies to a state, with what it asks of the state (R84). -/
inductive ActRow (c : Codec) (s : State) : Instr → Prop
  | none (hphase : s.phase = .done) : ActRow c s .none
  | idle (hphase : s.phase = .run) (hbuf : s.buf = []) : ActRow c s .idle
  | finishEmpty (hphase : s.phase = .drain) (hbuf : s.buf = []) : ActRow c s .finishEmpty
  | discard (hscan : s.Scanning) (hbuf : s.buf ≠ []) (hhead : s.headIsMarker = false) : ActRow c s .discard
  | wait (hphase : s.phase = .run) (hhead : s.headIsMarker = true) (hwin : window? s.buf = Option.none) :
      ActRow c s .wait
  | finishPartial (hphase : s.phase = .drain) (hhead : s.headIsMarker = true)
      (hwin : window? s.buf = Option.none) : ActRow c s .finishPartial
  | hold (w : Frame) (hscan : s.Scanning) (hhead : s.headIsMarker = true) (hwin : window? s.buf = some w)
      (hfree : s.outputFree = false) : ActRow c s .hold
  | emit (w : Frame) (hscan : s.Scanning) (hhead : s.headIsMarker = true) (hwin : window? s.buf = some w)
      (hfree : s.outputFree = true) (hres : resultOf (validate c w) = .ok) : ActRow c s .emit
  | rejectMalformed (w : Frame) (hscan : s.Scanning) (hhead : s.headIsMarker = true)
      (hwin : window? s.buf = some w) (hfree : s.outputFree = true)
      (hres : resultOf (validate c w) = .malformed) : ActRow c s .rejectMalformed
  | rejectChecksum (w : Frame) (hscan : s.Scanning) (hhead : s.headIsMarker = true)
      (hwin : window? s.buf = some w) (hfree : s.outputFree = true)
      (hres : resultOf (validate c w) = .checksumMismatch) : ActRow c s .rejectChecksum

theorem State.scanning_of_legal {s : State} (hlegal : s.phase ≠ .reserved) (hdone : s.phase ≠ .done) :
    s.Scanning := by
  unfold State.Scanning
  cases hphase : s.phase <;> simp_all

/-- The output is busy exactly where HOLD's condition of R142 holds (R84). -/
theorem State.outputFree_eq_false_iff (s : State) :
    s.outputFree = false ↔ s.outValid = true ∧ s.pins.outReady = false := by
  simp [State.outputFree]

theorem State.buf_ne_nil_of_headIsMarker {s : State} (hhead : s.headIsMarker = true) : s.buf ≠ [] := by
  intro hbuf
  simp [State.headIsMarker, hbuf] at hhead

theorem State.bufCnt_lt_of_no_window {s : State} (hwin : window? s.buf = none) : s.bufCnt < 16 :=
  (window?_eq_none_iff _).mp hwin

theorem State.le_bufCnt_of_window {s : State} {w : Frame} (hwin : window? s.buf = some w) :
    16 ≤ s.bufCnt := by
  obtain ⟨rest, hbuf⟩ := (window?_eq_some_iff _ _).mp hwin
  simp [State.bufCnt, hbuf]

/-- Act is the operation of the row that applies (R142). -/
theorem actRow_act (c : Codec) {s : State} (hlegal : s.phase ≠ .reserved) : ActRow c s (act c s) := by
  unfold act
  split
  next hphase => exact .none hphase
  next hdone =>
    have hscan : s.Scanning := State.scanning_of_legal hlegal hdone
    split
    next hbuf =>
      split
      next hphase => exact .finishEmpty hphase hbuf
      next hdrain => exact .idle (hscan.resolve_right hdrain) hbuf
    next b rest hbuf =>
      split
      next hb => exact .discard hscan (by simp [hbuf]) (by simpa [State.headIsMarker, hbuf] using hb)
      next hb =>
        have hhead : s.headIsMarker = true := by simpa [State.headIsMarker, hbuf] using hb
        split
        next hwin =>
          split
          next hphase => exact .finishPartial hphase hhead hwin
          next hdrain => exact .wait (hscan.resolve_right hdrain) hhead hwin
        next w hwin =>
          split
          next hbusy => exact .hold w hscan hhead hwin (s.outputFree_eq_false_iff.mpr hbusy)
          next hbusy =>
            have hfree : s.outputFree = true :=
              Bool.eq_true_of_not_eq_false (mt s.outputFree_eq_false_iff.mp hbusy)
            split
            next hres => exact .emit w hscan hhead hwin hfree hres
            next hres => exact .rejectMalformed w hscan hhead hwin hfree hres
            next hres => exact .rejectChecksum w hscan hhead hwin hfree hres

/-- No operation pops more than is buffered (R53). -/
theorem ActRow.popCount_le {c : Codec} {s : State} {i : Instr} (row : ActRow c s i) :
    popCount s i ≤ s.bufCnt := by
  cases row with
  | none | idle | wait | hold => exact Nat.zero_le _
  | finishEmpty | finishPartial => exact Nat.le_refl _
  | discard hscan hbuf => exact List.length_pos_iff.mpr hbuf
  | emit w hscan hhead hwin => exact State.le_bufCnt_of_window hwin
  | rejectMalformed w hscan hhead | rejectChecksum w hscan hhead =>
    exact List.length_pos_iff.mpr (State.buf_ne_nil_of_headIsMarker hhead)

/-- The number of popped bytes depends on the buffer only. -/
theorem popCount_congr {s u : State} (hbuf : u.buf = s.buf) (i : Instr) : popCount u i = popCount s i := by
  cases i <;> simp [popCount, State.bufCnt, hbuf]

theorem ActRow.popCount_le_of_buf_eq {c : Codec} {s u : State} {i : Instr} (row : ActRow c s i)
    (hbuf : u.buf = s.buf) : popCount u i ≤ u.bufCnt := by
  rw [popCount_congr hbuf, State.bufCnt, hbuf]
  exact row.popCount_le

/-! The masks of the operation map over the bits of OPSEL (R87). -/

/-- OPSEL from its parts: phase, empty, full, marker at the head, output free, result code (R87). -/
def opselBits (ph : Phase) (z f m o : Bool) (r : BitVec 2) : BitVec 8 :=
  phaseCode ph ++ BitVec.ofBool z ++ BitVec.ofBool f ++ BitVec.ofBool m ++ BitVec.ofBool o ++ r

theorem State.opsel_eq_opselBits (c : Codec) (s : State) :
    s.opsel c = opselBits s.phase (s.bufCnt == 0) (decide (16 ≤ s.bufCnt)) s.headIsMarker s.outputFree
      (s.windowCode c) := rfl

theorem decodeOpsel_done : ∀ (z f m o : Bool) (r : BitVec 2),
    decodeOpsel (opselBits .done z f m o r) = some .none := by decide

theorem decodeOpsel_run_empty : ∀ (f m o : Bool) (r : BitVec 2),
    decodeOpsel (opselBits .run true f m o r) = some .idle := by decide

theorem decodeOpsel_drain_empty : ∀ (f m o : Bool) (r : BitVec 2),
    decodeOpsel (opselBits .drain true f m o r) = some .finishEmpty := by decide

theorem decodeOpsel_run_partial : ∀ (o : Bool) (r : BitVec 2),
    decodeOpsel (opselBits .run false false true o r) = some .wait := by decide

theorem decodeOpsel_drain_partial : ∀ (o : Bool) (r : BitVec 2),
    decodeOpsel (opselBits .drain false false true o r) = some .finishPartial := by decide

theorem decodeOpsel_noise {ph : Phase} (hscan : ph = .run ∨ ph = .drain) : ∀ (f o : Bool) (r : BitVec 2),
    decodeOpsel (opselBits ph false f false o r) = some .discard := by
  rcases hscan with rfl | rfl <;> decide

theorem decodeOpsel_busy {ph : Phase} (hscan : ph = .run ∨ ph = .drain) : ∀ r : BitVec 2,
    decodeOpsel (opselBits ph false true true false r) = some .hold := by
  rcases hscan with rfl | rfl <;> decide

theorem decodeOpsel_ok {ph : Phase} (hscan : ph = .run ∨ ph = .drain) :
    decodeOpsel (opselBits ph false true true true 0#2) = some .emit := by
  rcases hscan with rfl | rfl <;> decide

theorem decodeOpsel_malformed {ph : Phase} (hscan : ph = .run ∨ ph = .drain) :
    decodeOpsel (opselBits ph false true true true 1#2) = some .rejectMalformed := by
  rcases hscan with rfl | rfl <;> decide

theorem decodeOpsel_checksumMismatch {ph : Phase} (hscan : ph = .run ∨ ph = .drain) :
    decodeOpsel (opselBits ph false true true true 2#2) = some .rejectChecksum := by
  rcases hscan with rfl | rfl <;> decide

theorem State.bufCnt_beq_zero_of_ne_nil {s : State} (hbuf : s.buf ≠ []) : (s.bufCnt == 0) = false := by
  simpa [State.bufCnt] using hbuf

theorem State.windowCode_of_window {s : State} {w : Frame} (c : Codec) (hwin : window? s.buf = some w) :
    s.windowCode c = resultCode (resultOf (validate c w)) := by
  simp [State.windowCode, hwin]

/-- The vector of a state with a full window at a marker. -/
theorem State.opsel_of_window {s : State} {w : Frame} (c : Codec) (hhead : s.headIsMarker = true)
    (hwin : window? s.buf = some w) :
    s.opsel c =
      opselBits s.phase false true true s.outputFree (resultCode (resultOf (validate c w))) := by
  rw [s.opsel_eq_opselBits, s.bufCnt_beq_zero_of_ne_nil (s.buf_ne_nil_of_headIsMarker hhead),
    decide_eq_true (State.le_bufCnt_of_window hwin), hhead, State.windowCode_of_window c hwin]

/-- The vector of a state with a partial window at a marker. -/
theorem State.opsel_of_no_window {s : State} (c : Codec) (hhead : s.headIsMarker = true)
    (hwin : window? s.buf = none) :
    s.opsel c = opselBits s.phase false false true s.outputFree (s.windowCode c) := by
  rw [s.opsel_eq_opselBits, s.bufCnt_beq_zero_of_ne_nil (s.buf_ne_nil_of_headIsMarker hhead),
    decide_eq_false (Nat.not_le.mpr (State.bufCnt_lt_of_no_window hwin)), hhead]

/-- The masks select from OPSEL the operation whose row applies (R84, R87). -/
theorem ActRow.decodeOpsel_eq {c : Codec} {s : State} {i : Instr} (row : ActRow c s i) :
    decodeOpsel (s.opsel c) = some i := by
  cases row with
  | none hphase =>
    rw [s.opsel_eq_opselBits, hphase]
    apply decodeOpsel_done
  | idle hphase hbuf =>
    rw [s.opsel_eq_opselBits, hphase, State.bufCnt, hbuf]
    apply decodeOpsel_run_empty
  | finishEmpty hphase hbuf =>
    rw [s.opsel_eq_opselBits, hphase, State.bufCnt, hbuf]
    apply decodeOpsel_drain_empty
  | discard hscan hbuf hhead =>
    rw [s.opsel_eq_opselBits, s.bufCnt_beq_zero_of_ne_nil hbuf, hhead]
    apply decodeOpsel_noise hscan
  | wait hphase hhead hwin =>
    rw [State.opsel_of_no_window c hhead hwin, hphase]
    apply decodeOpsel_run_partial
  | finishPartial hphase hhead hwin =>
    rw [State.opsel_of_no_window c hhead hwin, hphase]
    apply decodeOpsel_drain_partial
  | hold w hscan hhead hwin hfree =>
    rw [State.opsel_of_window c hhead hwin, hfree]
    apply decodeOpsel_busy hscan
  | emit w hscan hhead hwin hfree hres =>
    rw [State.opsel_of_window c hhead hwin, hfree, hres]
    exact decodeOpsel_ok hscan
  | rejectMalformed w hscan hhead hwin hfree hres =>
    rw [State.opsel_of_window c hhead hwin, hfree, hres]
    exact decodeOpsel_malformed hscan
  | rejectChecksum w hscan hhead hwin hfree hres =>
    rw [State.opsel_of_window c hhead hwin, hfree, hres]
    exact decodeOpsel_checksumMismatch hscan

end Sys2Proof.Machine
end

section
/-! One cycle, said once: what each selected instruction leaves of the state, and the step as their
composition (41_framer.md R154 to R156; 60_exceptions.md R199). -/

namespace Sys2Proof.Machine

/-! The transfers that XSEL selects (R87). -/

/-- XSEL from its parts: `rst`, `in_valid`, `in_ready`, `out_valid`, `out_ready`, `shutdown`, RUN (R87). -/
def xselBits (rst iv ir ov rdy sd run : Bool) : BitVec 7 :=
  BitVec.ofBool rst ++ BitVec.ofBool iv ++ BitVec.ofBool ir ++ BitVec.ofBool ov ++ BitVec.ofBool rdy ++
    BitVec.ofBool sd ++ BitVec.ofBool run

theorem reset_mem_transfers_xselBits : ∀ rst iv ir ov rdy sd run : Bool,
    Instr.reset ∈ transfers (xselBits rst iv ir ov rdy sd run) ↔ rst = true := by decide

theorem accept_mem_transfers_xselBits : ∀ rst iv ir ov rdy sd run : Bool,
    Instr.accept ∈ transfers (xselBits rst iv ir ov rdy sd run) ↔ (!rst && (iv && ir)) = true := by decide

theorem fire_mem_transfers_xselBits : ∀ rst iv ir ov rdy sd run : Bool,
    Instr.fire ∈ transfers (xselBits rst iv ir ov rdy sd run) ↔ (!rst && (ov && rdy)) = true := by decide

theorem shutdown_mem_transfers_xselBits : ∀ rst iv ir ov rdy sd run : Bool,
    Instr.shutdown ∈ transfers (xselBits rst iv ir ov rdy sd run) ↔ (!rst && (run && sd)) = true := by decide

variable (P : Params) (s : State)

/-- The shutdown bit of the cycle (R151). -/
def State.stops : Bool := s.phase == .run && s.pins.shutdown

theorem reset_mem_transfers : Instr.reset ∈ transfers (s.xsel P) ↔ s.pins.rst = true :=
  reset_mem_transfers_xselBits ..

theorem accept_mem_transfers :
    Instr.accept ∈ transfers (s.xsel P) ↔ (!s.pins.rst && s.accepts P) = true :=
  accept_mem_transfers_xselBits ..

theorem fire_mem_transfers : Instr.fire ∈ transfers (s.xsel P) ↔ (!s.pins.rst && s.fires) = true :=
  fire_mem_transfers_xselBits ..

theorem shutdown_mem_transfers : Instr.shutdown ∈ transfers (s.xsel P) ↔ (!s.pins.rst && s.stops) = true :=
  shutdown_mem_transfers_xselBits ..

theorem State.accepts_iff :
    s.accepts P = true ↔ s.pins.inValid = true ∧ s.phase = .run ∧ s.bufCnt < P.bufCap.val := by
  simp [State.accepts, State.inReady]

theorem State.stops_iff : s.stops = true ↔ s.phase = .run ∧ s.pins.shutdown = true := by
  simp [State.stops]

/-! What each part of a cycle leaves of the state. -/

/-- The state after the cycle's FIRE, if it applies (R150). -/
def State.fired : State := if s.fires then s.deliver else s

/-- The state after a scan operation whose row applies (R143 to R149, R152, R153). -/
def State.scanned : Instr → State
  | .discard => (s.dropHead 1).countNoise P
  | .rejectMalformed => (s.dropHead 1).countRejection P .malformedFrame
  | .rejectChecksum => (s.dropHead 1).countRejection P .checksumMismatch
  | .emit => (s.dropHead 16).load P ((window? s.buf).getD s.outRaw)
  | .finishEmpty => s.finish
  | .finishPartial => s.finish
  | _ => s

/-- The state after ACCEPT, where the cycle accepts a byte (R141). -/
def State.received (acc : Bool) (b : Byte) : State := if acc then s.acceptByte P b else s

/-- The state after SHUTDOWN, where the cycle takes one (R151). -/
def State.drained (stop : Bool) : State := if stop then s.startDrain else s

/-- The state after the cycle's FIRE and its one scan operation (R142, R150). -/
def State.afterScan : State := s.fired.scanned P (act P.toCodec s)

/-- The registers at the end of a cycle without reset (R156). -/
def State.afterCycle : State :=
  ((s.afterScan P).received P (s.accepts P) s.pins.inData).drained s.stops

/-! Their fields. -/

@[simp] theorem State.fired_buf : s.fired.buf = s.buf := by unfold State.fired; split <;> rfl

@[simp] theorem State.fired_inCnt : s.fired.inCnt = s.inCnt := by unfold State.fired; split <;> rfl

@[simp] theorem State.fired_phase : s.fired.phase = s.phase := by unfold State.fired; split <;> rfl

@[simp] theorem State.fired_pins : s.fired.pins = s.pins := by unfold State.fired; split <;> rfl

@[simp] theorem State.scanned_buf (i : Instr) : (s.scanned P i).buf = s.buf.drop (popCount s i) := by
  cases i <;> simp [State.scanned, popCount, State.bufCnt]

@[simp] theorem State.scanned_inCnt (i : Instr) : (s.scanned P i).inCnt = s.inCnt := by
  cases i <;> simp [State.scanned]

@[simp] theorem State.scanned_pins (i : Instr) : (s.scanned P i).pins = s.pins := by
  cases i <;> rfl

@[simp] theorem State.received_buf (acc : Bool) (b : Byte) :
    (s.received P acc b).buf = s.buf ++ if acc then [b] else [] := by
  cases acc <;> simp [State.received]

@[simp] theorem State.received_inCnt (acc : Bool) (b : Byte) :
    (s.received P acc b).inCnt = if acc then wrapInc P s.inCnt else s.inCnt := by
  cases acc <;> rfl

@[simp] theorem State.received_phase (acc : Bool) (b : Byte) : (s.received P acc b).phase = s.phase := by
  cases acc <;> rfl

@[simp] theorem State.received_pins (acc : Bool) (b : Byte) : (s.received P acc b).pins = s.pins := by
  cases acc <;> rfl

@[simp] theorem State.drained_buf (stop : Bool) : (s.drained stop).buf = s.buf := by cases stop <;> rfl

@[simp] theorem State.drained_inCnt (stop : Bool) : (s.drained stop).inCnt = s.inCnt := by
  cases stop <;> rfl

@[simp] theorem State.afterScan_buf : (s.afterScan P).buf = s.buf.drop (popCount s (act P.toCodec s)) := by
  simp [State.afterScan, popCount_congr s.fired_buf]

@[simp] theorem State.afterScan_inCnt : (s.afterScan P).inCnt = s.inCnt := by simp [State.afterScan]

@[simp] theorem State.afterScan_pins : (s.afterScan P).pins = s.pins := by simp [State.afterScan]

theorem State.afterScan_bufCnt_le : (s.afterScan P).bufCnt ≤ s.bufCnt := by simp [State.bufCnt]

/-- No scan operation of RUN ends the phase: FINISH is one of DRAIN (R151). -/
theorem ActRow.scanned_phase {c : Codec} {s : State} {i : Instr} (row : ActRow c s i) (hrun : s.phase = .run)
    (P : Params) (u : State) : (u.scanned P i).phase = u.phase := by
  cases row with
  | finishEmpty hdrain | finishPartial hdrain => simp [hrun] at hdrain
  | none | idle | discard | wait | hold | emit | rejectMalformed | rejectChecksum => simp [State.scanned]

theorem State.afterScan_phase_of_run (hrun : s.phase = .run) : (s.afterScan P).phase = .run := by
  have row : ActRow P.toCodec s (act P.toCodec s) := actRow_act P.toCodec (by simp [hrun])
  rw [State.afterScan, row.scanned_phase hrun, s.fired_phase, hrun]

/-- The pops, then the push (R154). -/
theorem State.afterCycle_buf :
    (s.afterCycle P).buf =
      s.buf.drop (popCount s (act P.toCodec s)) ++ if s.accepts P then [s.pins.inData] else [] := by
  simp [State.afterCycle]

theorem State.afterCycle_inCnt :
    (s.afterCycle P).inCnt = if s.accepts P then wrapInc P s.inCnt else s.inCnt := by
  simp [State.afterCycle]

/-! The instructions leave these states. -/

theorem runInstrs_selected (ex : Instr → State → Out) (v : BitVec 7) (i : Instr) (s : State) :
    runInstrs ex (selected v i) s = if i ∈ transfers v then ex i s else .next s := by
  rcases selected_eq v i with ⟨hsel, hmem⟩ | ⟨hsel, hmem⟩
  · rw [hsel, if_pos hmem, runInstrs_cons]
    cases ex i s <;> rfl
  · rw [hsel, if_neg hmem, runInstrs_nil]

variable {P s}

/-- An operation whose row applies goes through, on any state with the same buffer. -/
theorem ActRow.execWith_eq {i : Instr} (row : ActRow P.toCodec s i) {u : State} (hbuf : u.buf = s.buf) :
    execWith P i u = .next (u.scanned P i) := by
  have hpop : popCount u i ≤ u.bufCnt := row.popCount_le_of_buf_eq hbuf
  cases row with
  | none | idle | finishEmpty | wait | finishPartial | hold => rfl
  | discard =>
    exact (andThen_eq_next_iff _ _ _).mpr ⟨_, (pop_eq_next_iff _ _ _).mpr ⟨hpop, rfl⟩, rfl⟩
  | emit w hscan hhead hwin =>
    have hu : window? u.buf = some w := by rw [hbuf, hwin]
    have hemit : emitFrame P w u = .next ((u.dropHead 16).load P w) :=
      (emitFrame_eq_next_iff P w u _).mpr ⟨hpop, rfl⟩
    simpa [execWith, emitWith, State.scanned, hu] using hemit
  | rejectMalformed | rejectChecksum => exact (takeRejection_eq_next_iff P _ u _).mpr ⟨hpop, rfl⟩

theorem runInstrs_fire (hrst : s.pins.rst = false) :
    runInstrs (execWith P) (selected (s.xsel P) .fire) s = .next s.fired := by
  rw [runInstrs_selected]
  simp only [fire_mem_transfers, hrst, Bool.not_false, Bool.true_and]
  unfold State.fired
  split
  next hfires => simp [execWith, execFire, hfires]
  next => rfl

/-- ACCEPT, selected at the cycle's start, still finds room after the pops. -/
theorem runInstrs_accept (hrst : s.pins.rst = false) :
    runInstrs (execWith P) (selected (s.xsel P) .accept) (s.afterScan P) =
      .next ((s.afterScan P).received P (s.accepts P) s.pins.inData) := by
  rw [runInstrs_selected]
  simp only [accept_mem_transfers, hrst, Bool.not_false, Bool.true_and]
  unfold State.received
  split
  next hacc =>
    obtain ⟨hvalid, hrun, hcap⟩ := (s.accepts_iff P).mp hacc
    have hroom : (s.afterScan P).accepts P = true :=
      (State.accepts_iff P _).mpr ⟨by simpa using hvalid, s.afterScan_phase_of_run P hrun,
        (s.afterScan_bufCnt_le P).trans_lt hcap⟩
    simp [execWith, acceptWith, hroom]
  next => rfl

theorem runInstrs_shutdown (hrst : s.pins.rst = false) {u : State} (hpins : u.pins = s.pins)
    (hphase : s.phase = .run → u.phase = .run) :
    runInstrs (execWith P) (selected (s.xsel P) .shutdown) u = .next (u.drained s.stops) := by
  rw [runInstrs_selected]
  simp only [shutdown_mem_transfers, hrst, Bool.not_false, Bool.true_and]
  unfold State.drained
  split
  next hstops =>
    obtain ⟨hrun, hsd⟩ := s.stops_iff.mp hstops
    simp [execWith, execShutdown, hphase hrun, hpins, hsd]
  next => rfl

/-- R220: with `rst` the step is the reset, in any phase. -/
theorem stepWith_of_reset (hrst : s.pins.rst = true) : stepWith P s = .next s.resetRegisters.tick := by
  have hsel : Instr.reset ∈ transfers (s.xsel P) := (reset_mem_transfers P s).mpr hrst
  simp [stepWith, cycleStep, cycleInstrs, hsel, execWith, execReset]

/-- Without reset, in a legal phase, a step goes through and is the cycle's parts in order (R156, R199). -/
theorem stepWith_of_no_reset (hlegal : s.phase ≠ .reserved) (hrst : s.pins.rst = false) :
    stepWith P s = .next (s.afterCycle P).tick := by
  have row : ActRow P.toCodec s (act P.toCodec s) := actRow_act P.toCodec hlegal
  have hnoReset : ¬ Instr.reset ∈ transfers (s.xsel P) := by simp [reset_mem_transfers, hrst]
  have hop : execWith P (act P.toCodec s) s.fired = .next (s.afterScan P) :=
    row.execWith_eq s.fired_buf
  have hshutdown := runInstrs_shutdown (P := P) hrst
    (u := (s.afterScan P).received P (s.accepts P) s.pins.inData) (by simp)
    fun hrun => by rw [State.received_phase, s.afterScan_phase_of_run P hrun]
  simp only [stepWith, cycleStep, cycleInstrs, if_neg hnoReset, row.decodeOpsel_eq, runInstrs_append,
    runInstrs_fire hrst, runInstrs_cons, runInstrs_nil, hop, runInstrs_accept hrst, hshutdown, andThen_next]
  rfl

end Sys2Proof.Machine
end

section
/-! Counting modulo `2^CNT_W` (10_state.md R32, R46; 41_framer.md R155): a wrapped count is the count itself
in `ZMod (2^CNT_W)`. -/

namespace Sys2Proof.Machine

theorem cntMod_pos (P : Params) : 0 < cntMod P := Nat.two_pow_pos _

theorem wrapInc_lt (P : Params) (n : Nat) : wrapInc P n < cntMod P := Nat.mod_lt _ (cntMod_pos P)

theorem wrapInc_cast (P : Params) (n : Nat) : ((wrapInc P n : Nat) : ZMod (cntMod P)) = n + 1 := by
  simp [wrapInc]

theorem State.headPos_lt (P : Params) (s : State) : s.headPos P < cntMod P := by
  have hpos : (0 : Int) < cntMod P := by exact_mod_cast cntMod_pos P
  have hnonneg := Int.emod_nonneg ((s.inCnt : Int) - s.bufCnt) hpos.ne'
  have hlt := Int.emod_lt_of_pos ((s.inCnt : Int) - s.bufCnt) hpos
  unfold State.headPos
  omega

theorem State.headPos_cast (P : Params) (s : State) :
    ((s.headPos P : Nat) : ZMod (cntMod P)) = (s.inCnt : ZMod (cntMod P)) - s.bufCnt := by
  have hpos : (0 : Int) < cntMod P := by exact_mod_cast cntMod_pos P
  have hnat : ((s.headPos P : Nat) : Int) = ((s.inCnt : Int) - s.bufCnt) % (cntMod P : Int) :=
    Int.toNat_of_nonneg (Int.emod_nonneg _ hpos.ne')
  calc ((s.headPos P : Nat) : ZMod (cntMod P))
      = (((s.headPos P : Nat) : Int) : ZMod (cntMod P)) := by simp
    _ = ((((s.inCnt : Int) - s.bufCnt) % (cntMod P : Int) : Int) : ZMod (cntMod P)) := by rw [hnat]
    _ = (s.inCnt : ZMod (cntMod P)) - s.bufCnt := by simp [ZMod.intCast_mod]

/-- `in_cnt` rises by the accept bit (R155). -/
theorem State.afterCycle_inCnt_cast (P : Params) (s : State) :
    ((s.afterCycle P).inCnt : ZMod (cntMod P)) = s.inCnt + if s.accepts P then 1 else 0 := by
  rw [s.afterCycle_inCnt]
  split <;> simp [wrapInc_cast]

/-- `buf_cnt` falls by the pops and rises by the accept bit (R154). -/
theorem State.afterCycle_bufCnt (P : Params) {s : State} (hlegal : s.phase ≠ .reserved) :
    (s.afterCycle P).bufCnt + popCount s (act P.toCodec s) = s.bufCnt + if s.accepts P then 1 else 0 := by
  have hpop : popCount s (act P.toCodec s) ≤ s.bufCnt := (actRow_act P.toCodec hlegal).popCount_le
  unfold State.bufCnt at hpop ⊢
  rw [s.afterCycle_buf]
  split <;> simp <;> omega

/-- Settles O40: in the difference `in_cnt - buf_cnt` the accepted byte cancels and the pops remain. -/
theorem headPositionMovesByThePops : Obligations.HeadPositionMovesByThePops := by
  unfold Obligations.HeadPositionMovesByThePops
  intro P s hlegal hrst
  refine ⟨_, stepWith_of_no_reset hlegal hrst, ?_⟩
  have hbuf : ((s.afterCycle P).bufCnt : ZMod (cntMod P)) + popCount s (act P.toCodec s) =
      s.bufCnt + if s.accepts P then 1 else 0 := by
    exact_mod_cast congrArg (Nat.cast (R := ZMod (cntMod P))) (State.afterCycle_bufCnt P hlegal)
  have hcast : (((s.afterCycle P).headPos P : Nat) : ZMod (cntMod P)) =
      ((s.headPos P + popCount s (act P.toCodec s) : Nat) : ZMod (cntMod P)) := by
    push_cast
    rw [State.headPos_cast, State.headPos_cast, State.afterCycle_inCnt_cast]
    linear_combination -hbuf
  calc (s.afterCycle P).headPos P
      = (s.afterCycle P).headPos P % cntMod P := (Nat.mod_eq_of_lt (State.headPos_lt P _)).symm
    _ = (s.headPos P + popCount s (act P.toCodec s)) % cntMod P :=
      (ZMod.natCast_eq_natCast_iff' _ _ _).mp hcast

end Sys2Proof.Machine
end

section
/-! The invariants of 10_state.md R46: the reset state has them, and each part of a cycle keeps them. -/

namespace Sys2Proof.Machine

/-- The conservation identity of R46, read in `ZMod (2^CNT_W)`. -/
def State.Conserves (P : Params) (s : State) : Prop :=
  (s.inCnt : ZMod (cntMod P)) =
    s.noiseCnt + s.malCnt + s.ckCnt + 16 * s.frameCnt + s.bufCnt + s.residueLen.toNat

variable {P : Params} {s : State}

theorem State.conserves_iff :
    s.Conserves P ↔
      s.inCnt % cntMod P =
        (s.noiseCnt + s.malCnt + s.ckCnt + 16 * s.frameCnt + s.bufCnt + s.residueLen.toNat) % cntMod P := by
  rw [← ZMod.natCast_eq_natCast_iff', State.Conserves]
  push_cast
  rfl

theorem State.Inv.conserves (hs : s.Inv P) : s.Conserves P := State.conserves_iff.mpr hs.conservation

theorem State.inReady_of_drain (P : Params) (hdrain : s.phase = .drain) : s.inReady P = false := by
  simp [State.inReady, hdrain]

/-! Reset, the clock and the transfers. -/

theorem State.resetRegisters_inv (P : Params) (s : State) : s.resetRegisters.Inv P where
  bufFits := Nat.zero_le _
  phaseLegal := by simp
  residueFits := by simp
  doneEmpty := fun _ => rfl
  drainNotReady := State.inReady_of_drain P
  outputValidates := by simp
  conservation := by simp [State.bufCnt]
  residueOnce := fun _ => rfl
  countersFit := ⟨cntMod_pos P, cntMod_pos P, cntMod_pos P, cntMod_pos P, cntMod_pos P⟩

theorem State.Inv.tick (hs : s.Inv P) : s.tick.Inv P :=
  { hs with countersFit := { hs.countersFit with } }

theorem State.Inv.deliver (hs : s.Inv P) : s.deliver.Inv P :=
  { hs with
    outputValidates := by simp
    countersFit := { hs.countersFit with } }

theorem State.Inv.fired (hs : s.Inv P) : s.fired.Inv P := by
  unfold State.fired
  split
  · exact hs.deliver
  · exact hs

theorem State.Inv.startDrain (hs : s.Inv P) (hrun : s.phase = .run) : s.startDrain.Inv P :=
  { hs with
    phaseLegal := by simp
    doneEmpty := by simp
    drainNotReady := State.inReady_of_drain P
    residueOnce := fun _ => hs.residueOnce (by simp [hrun])
    countersFit := { hs.countersFit with } }

/-- Accepting where there is room: `in_cnt` and `buf_cnt` rise together. -/
theorem State.Inv.acceptByte (hs : s.Inv P) (hrun : s.phase = .run) (hroom : s.bufCnt < P.bufCap.val)
    (b : Byte) : (s.acceptByte P b).Inv P := by
  have hcnt : (s.acceptByte P b).bufCnt = s.bufCnt + 1 := by simp [State.bufCnt]
  have hcons : (s.acceptByte P b).Conserves P := by
    have hold := hs.conserves
    simp only [State.Conserves, State.acceptByte_inCnt, State.acceptByte_noiseCnt, State.acceptByte_malCnt,
      State.acceptByte_ckCnt, State.acceptByte_frameCnt, State.acceptByte_residueLen, hcnt, wrapInc_cast,
      Nat.cast_succ] at hold ⊢
    linear_combination hold
  exact
    { hs with
      bufFits := hcnt ▸ hroom
      doneEmpty := by simp [hrun]
      drainNotReady := State.inReady_of_drain P
      conservation := State.conserves_iff.mp hcons
      countersFit := { hs.countersFit with inFits := wrapInc_lt P _ } }

/-! The scan operations. -/

/-- An update that pops n bytes and raises the counts of consumed bytes by n keeps the invariants, where it
leaves phase, input count and residue. -/
theorem State.Inv.of_consumed (hs : s.Inv P) {t : State} {n : Nat} (hn : n ≤ s.bufCnt)
    (hbuf : t.buf = s.buf.drop n) (hphase : t.phase = s.phase) (hres : t.residueLen = s.residueLen)
    (hin : t.inCnt = s.inCnt) (hout : t.outValid = true → resultOf (validate P.toCodec t.outRaw) = .ok)
    (hcount : (t.noiseCnt + t.malCnt + t.ckCnt + 16 * t.frameCnt : ZMod (cntMod P)) =
      s.noiseCnt + s.malCnt + s.ckCnt + 16 * s.frameCnt + n)
    (hfit : t.CountersFit P) : t.Inv P := by
  have hcnt : t.bufCnt + n = s.bufCnt := by
    simp only [State.bufCnt, hbuf, List.length_drop] at hn ⊢
    omega
  have hcons : t.Conserves P := by
    have hold := hs.conserves
    have hcast : (t.bufCnt : ZMod (cntMod P)) + n = s.bufCnt := by exact_mod_cast congrArg Nat.cast hcnt
    simp only [State.Conserves, hin, hres] at hold ⊢
    linear_combination hold - hcount - hcast
  exact
    { bufFits := by have := hs.bufFits; omega
      phaseLegal := hphase ▸ hs.phaseLegal
      residueFits := hres ▸ hs.residueFits
      doneEmpty := fun hdone => by have := hs.doneEmpty (hphase ▸ hdone); omega
      drainNotReady := State.inReady_of_drain P
      outputValidates := hout
      conservation := State.conserves_iff.mp hcons
      residueOnce := fun hdone => hres ▸ hs.residueOnce (hphase ▸ hdone)
      countersFit := hfit }

theorem State.Inv.countNoise (hs : s.Inv P) (hne : 1 ≤ s.bufCnt) : ((s.dropHead 1).countNoise P).Inv P :=
  hs.of_consumed hne rfl rfl rfl rfl hs.outputValidates
    (by
      simp only [State.countNoise_noiseCnt, State.countNoise_malCnt, State.countNoise_ckCnt,
        State.countNoise_frameCnt, State.dropHead_noiseCnt, State.dropHead_malCnt, State.dropHead_ckCnt,
        State.dropHead_frameCnt, wrapInc_cast, Nat.cast_one]
      ring)
    { hs.countersFit with noiseFits := wrapInc_lt P _ }

theorem State.Inv.countRejection (hs : s.Inv P) (hne : 1 ≤ s.bufCnt) (r : Rejection) :
    ((s.dropHead 1).countRejection P r).Inv P := by
  have hcount :
      ((((s.dropHead 1).countRejection P r).malCnt + ((s.dropHead 1).countRejection P r).ckCnt :
        ZMod (cntMod P)) = s.malCnt + s.ckCnt + 1) := by
    cases r with
    | malformedFrame =>
      simp only [State.countRejection_malCnt_malformedFrame, State.countRejection_ckCnt_malformedFrame,
        State.dropHead_malCnt, State.dropHead_ckCnt, wrapInc_cast]
      ring
    | checksumMismatch =>
      simp only [State.countRejection_malCnt_checksumMismatch,
        State.countRejection_ckCnt_checksumMismatch, State.dropHead_malCnt, State.dropHead_ckCnt,
        wrapInc_cast]
      ring
  have hfit : ((s.dropHead 1).countRejection P r).CountersFit P := by
    cases r with
    | malformedFrame => exact { hs.countersFit with malFits := wrapInc_lt P _ }
    | checksumMismatch => exact { hs.countersFit with ckFits := wrapInc_lt P _ }
  refine hs.of_consumed hne (by simp) (by simp) (by simp) (by simp)
    (by simpa using hs.outputValidates) ?_ hfit
  simp only [State.countRejection_noiseCnt, State.countRejection_frameCnt, State.dropHead_noiseCnt,
    State.dropHead_frameCnt, Nat.cast_one]
  linear_combination hcount

/-- A valid frame emitted: 16 bytes and one frame. -/
theorem State.Inv.load (hs : s.Inv P) (hlen : 16 ≤ s.bufCnt) {w : Frame}
    (hw : resultOf (validate P.toCodec w) = .ok) : ((s.dropHead 16).load P w).Inv P :=
  hs.of_consumed hlen rfl rfl rfl rfl (fun _ => hw)
    (by
      simp only [State.load_noiseCnt, State.load_malCnt, State.load_ckCnt, State.load_frameCnt,
        State.dropHead_noiseCnt, State.dropHead_malCnt, State.dropHead_ckCnt, State.dropHead_frameCnt,
        wrapInc_cast]
      push_cast
      ring)
    { hs.countersFit with frameFits := wrapInc_lt P _ }

/-- FINISH in DRAIN: the residue takes over what was buffered, and fits its 4 bits. -/
theorem State.Inv.finish (hs : s.Inv P) (hdrain : s.phase = .drain) (hshort : s.bufCnt < 16) :
    s.finish.Inv P := by
  have hres : s.finish.residueLen.toNat = s.bufCnt := by
    simpa using Nat.mod_eq_of_lt hshort
  have hbuf : s.finish.bufCnt = 0 := rfl
  have hcons : s.finish.Conserves P := by
    have hold := hs.conserves
    have hzero : s.residueLen = 0#4 := hs.residueOnce (by simp [hdrain])
    simp only [State.Conserves, hzero, hres, hbuf] at hold ⊢
    simpa using hold
  exact
    { hs with
      bufFits := Nat.zero_le _
      phaseLegal := by simp
      residueFits := by omega
      doneEmpty := fun _ => rfl
      drainNotReady := by simp
      conservation := State.conserves_iff.mp hcons
      residueOnce := by simp
      countersFit := { hs.countersFit with } }

/-- Every operation whose row applies keeps the invariants. -/
theorem ActRow.scanned_inv {i : Instr} (row : ActRow P.toCodec s i) {u : State} (hu : u.Inv P)
    (hbuf : u.buf = s.buf) (hphase : u.phase = s.phase) : (u.scanned P i).Inv P := by
  have hpop : popCount u i ≤ u.bufCnt := row.popCount_le_of_buf_eq hbuf
  cases row with
  | none | idle | wait | hold => exact hu
  | finishEmpty hdrain hempty => exact hu.finish (hphase.trans hdrain) (by simp [State.bufCnt, hbuf, hempty])
  | finishPartial hdrain hhead hwin =>
    exact hu.finish (hphase.trans hdrain) (State.bufCnt_lt_of_no_window (hbuf ▸ hwin))
  | discard => exact hu.countNoise hpop
  | rejectMalformed => exact hu.countRejection hpop .malformedFrame
  | rejectChecksum => exact hu.countRejection hpop .checksumMismatch
  | emit w hscan hhead hwin hfree hres =>
    have hw : (window? u.buf).getD u.outRaw = w := by rw [hbuf, hwin]; rfl
    exact hu.load hpop (hw ▸ hres)

/-! The cycle. -/

theorem State.Inv.afterScan (hs : s.Inv P) : (s.afterScan P).Inv P :=
  (actRow_act P.toCodec hs.phaseLegal).scanned_inv hs.fired s.fired_buf s.fired_phase

/-- A byte accepted in this cycle found room before the pops, so it finds room after them (R154). -/
theorem State.Inv.received (hs : s.Inv P) :
    ((s.afterScan P).received P (s.accepts P) s.pins.inData).Inv P := by
  unfold State.received
  split
  next hacc =>
    obtain ⟨-, hrun, hroom⟩ := (s.accepts_iff P).mp hacc
    exact hs.afterScan.acceptByte (s.afterScan_phase_of_run P hrun)
      ((s.afterScan_bufCnt_le P).trans_lt hroom) _
  next => exact hs.afterScan

theorem State.Inv.afterCycle (hs : s.Inv P) : (s.afterCycle P).Inv P := by
  unfold State.afterCycle State.drained
  split
  next hstop =>
    obtain ⟨hrun, -⟩ := s.stops_iff.mp hstop
    exact hs.received.startDrain (by rw [State.received_phase, s.afterScan_phase_of_run P hrun])
  next => exact hs.received

/-- A step goes through from every state with the invariants, to a state with them. -/
theorem State.Inv.exists_step (hs : s.Inv P) : ∃ t, stepWith P s = .next t ∧ t.Inv P := by
  cases hrst : s.pins.rst with
  | true => exact ⟨_, stepWith_of_reset hrst, (s.resetRegisters_inv P).tick⟩
  | false => exact ⟨_, stepWith_of_no_reset hs.phaseLegal hrst, hs.afterCycle.tick⟩

end Sys2Proof.Machine
end

section
/-! The statements of 10_state.md R46 and R42 about every step, every safe state and the reset state. -/

namespace Sys2Proof.Machine

/-- Settles O43: a step without reset is FIRE, the scan operation, ACCEPT and SHUTDOWN in order
(`stepWith_of_no_reset`), each of which keeps the invariants; a reset makes them hold anew. -/
theorem stepKeepsTheInvariants : Obligations.StepKeepsTheInvariants := by
  unfold Obligations.StepKeepsTheInvariants
  have hstep (P : Params) (s t : State) (hs : s.Inv P) (ht : stepWith P s = .next t) : t.Inv P := by
    obtain ⟨u, hu, hinv⟩ := hs.exists_step
    cases hu.symm.trans ht
    exact hinv
  exact ⟨hstep, step_eq_stepWith ▸ hstep defaultParams⟩

/-- Until the stream has `2^CNT_W` bytes no counter of a state that follows the scan has wrapped: each
counts bytes or frames of the stream, so the scan's own count of bytes is theirs. -/
theorem State.Tracks.conserves_exactly {P : Params} {s : State} {a : ScanAcc} (h : s.Tracks P a)
    (hlen : s.stream.length < cntMod P) :
    s.inCnt =
      s.noiseCnt + s.malCnt + s.ckCnt + 16 * s.frameCnt + s.bufCnt + s.residueLen.toNat := by
  have hbytes := h.bytes
  unfold ScanAcc.consumed at hbytes
  have hin : s.inCnt = s.stream.length := h.inCount.trans (Nat.mod_eq_of_lt hlen)
  have hnoise : s.noiseCnt = a.noise := h.noiseCount.trans (Nat.mod_eq_of_lt (by omega))
  have hmal : s.malCnt = a.mal := h.malCount.trans (Nat.mod_eq_of_lt (by omega))
  have hck : s.ckCnt = a.ck := h.ckCount.trans (Nat.mod_eq_of_lt (by omega))
  have hframe : s.frameCnt = a.frames.length := h.frameCount.trans (Nat.mod_eq_of_lt (by omega))
  omega

/-- Settles O46: the list of R46 is the invariant, with conservation exact by `conserves_exactly`. -/
theorem safeStatesMeetTheListedInvariants : Obligations.SafeStatesMeetTheListedInvariants := by
  unfold Obligations.SafeStatesMeetTheListedInvariants
  rintro P s ⟨hinv, a, htracks⟩
  exact ⟨hinv.bufFits, hinv.phaseLegal, hinv.residueFits, hinv.doneEmpty, hinv.drainNotReady,
    hinv.outputValidates, htracks.conserves_exactly⟩

/-- Reset registers are where the scan of the empty stream is, whatever inputs come (R19, R42). -/
theorem State.resetRegisters_tracks (P : Params) (s : State) : s.resetRegisters.Tracks P .empty where
  frames := rfl
  inCount := (Nat.zero_mod _).symm
  noiseCount := (Nat.zero_mod _).symm
  malCount := (Nat.zero_mod _).symm
  ckCount := (Nat.zero_mod _).symm
  frameCount := (Nat.zero_mod _).symm
  bytes := rfl
  scanning := fun _ _ => rfl
  finished := by simp

theorem State.resetRegisters_safe (P : Params) (s : State) : s.resetRegisters.Safe P :=
  ⟨s.resetRegisters_inv P, .empty, s.resetRegisters_tracks P⟩

/-- Settles O42: the reset state is a state's registers reset, with that state's schedule. -/
theorem resetStateIsSafe : Obligations.ResetStateIsSafe := by
  unfold Obligations.ResetStateIsSafe
  exact fun P => ⟨State.reset.resetRegisters_safe P,
    fun ps => ({ State.reset with schedule := ps } : State).resetRegisters_safe P⟩

end Sys2Proof.Machine
end

section
/-! Packing a window into a port and back (20_memory.md R55), and the validator's ports (10_state.md R40). -/

namespace Sys2Proof.Machine

/-- The number that a byte sequence spells in radix 256, first byte most significant (R55). -/
def foldBytes (l : List Byte) : Nat := l.foldl (fun n b => n * 256 + b.toNat) 0

theorem pack_eq_foldBytes (w : Frame) : pack w = BitVec.ofNat 128 (foldBytes w.toList) := rfl

theorem foldBytes_append_singleton (l : List Byte) (b : Byte) :
    foldBytes (l ++ [b]) = foldBytes l * 256 + b.toNat := by
  simp [foldBytes]

/-- The digit of weight 256^j is the j-th byte from the end. -/
theorem foldBytes_digit (l : List Byte) (j : Nat) (hj : j < l.length) :
    foldBytes l / 256 ^ j % 256 = (l[l.length - 1 - j]).toNat := by
  induction l using List.reverseRecOn generalizing j with
  | nil => simp at hj
  | append_singleton l b ih =>
    have hb : b.toNat < 256 := b.isLt
    rw [foldBytes_append_singleton]
    cases j with
    | zero =>
      simp
      omega
    | succ j =>
      simp only [List.length_append, List.length_singleton] at hj
      have hshift : (foldBytes l * 256 + b.toNat) / 256 ^ (j + 1) = foldBytes l / 256 ^ j := by
        rw [pow_succ', ← Nat.div_div_eq_div_mul]
        congr 1
        omega
      have hindex : l.length + 1 - 1 - (j + 1) = l.length - 1 - j := by omega
      rw [hshift, ih j (by omega)]
      simp only [List.length_append, List.length_singleton, hindex]
      rw [List.getElem_append_left]

/-- Eight bits of a packed number are one of its bytes. -/
theorem ofNat_extract_byte (N k : Nat) (hk : k < 16) :
    ((BitVec.ofNat 128 N).extractLsb' (120 - 8 * k) 8).toNat = N / 256 ^ (15 - k) % 256 := by
  have hweight : 2 ^ (120 - 8 * k) = 256 ^ (15 - k) := by
    rw [show 120 - 8 * k = 8 * (15 - k) by omega, Nat.pow_mul]
  have hport : 2 ^ 128 = 256 ^ (15 - k) * 256 ^ (k + 1) := by
    rw [← Nat.pow_add, show 15 - k + (k + 1) = 16 by omega]
    norm_num
  calc ((BitVec.ofNat 128 N).extractLsb' (120 - 8 * k) 8).toNat
      = N % 2 ^ 128 / 2 ^ (120 - 8 * k) % 256 := by
        rw [BitVec.extractLsb'_toNat, BitVec.toNat_ofNat, Nat.shiftRight_eq_div_pow]
    _ = N / 256 ^ (15 - k) % 256 ^ (k + 1) % 256 := by rw [hweight, hport, Nat.mod_mul_right_div_self]
    _ = N / 256 ^ (15 - k) % 256 := Nat.mod_mod_of_dvd _ (dvd_pow_self 256 (Nat.succ_ne_zero k))

/-- Nothing is lost on a port (R55). -/
theorem unpack_pack (w : Frame) : unpack (pack w) = w := by
  apply Vector.ext
  intro k hk
  apply BitVec.eq_of_toNat_eq
  have hdigit := foldBytes_digit w.toList (15 - k) (by simp; omega)
  simp only [unpack, Vector.getElem_ofFn, pack_eq_foldBytes, ofNat_extract_byte _ k hk, hdigit]
  simp [show 15 - (15 - k) = k by omega]

/-- The fields of a valid window are read from its digits (R111, R112 to R116). -/
theorem eq_fieldsOf_of_validate {c : Codec} {w : Frame} {f : Fields} (hok : validate c w = .ok f) :
    f = fieldsOf w := by
  unfold validate at hok
  split at hok
  · split at hok
    · exact (Verdict.ok.inj hok).symm
    · cases hok
  · cases hok

/-- The ports carry the result's code, and the window's fields with OK alone (R40, R117). -/
theorem validatorPorts_pack (c : Codec) (w : Frame) :
    validatorPorts c (pack w) =
      (resultCode (resultOf (validate c w)),
        if resultOf (validate c w) = .ok then some (fieldsOf w) else none) := by
  unfold validatorPorts
  rw [unpack_pack]
  cases hv : validate c w with
  | ok f =>
    cases eq_fieldsOf_of_validate hv
    rfl
  | malformed | checksumMismatch => rfl

/-- The three results have three codes (R190). -/
theorem resultCode_inj (r r' : Result) : resultCode r = resultCode r' ↔ r = r' := by
  cases r <;> cases r' <;> decide

/-- Settles O14: what arrives on `val_win` is the window that was packed (`unpack_pack`), and the codes of
the three results differ. -/
theorem validatorPortsJudgeThePackedWindow : Obligations.ValidatorPortsJudgeThePackedWindow := by
  unfold Obligations.ValidatorPortsJudgeThePackedWindow
  intro c w
  rw [validatorPorts_pack]
  exact ⟨resultCode_inj _ .ok, resultCode_inj _ .malformed, resultCode_inj _ .checksumMismatch, rfl⟩

end Sys2Proof.Machine
end

section
/-! The reference scan (41_framer.md R160), said once: the rounds it makes, where it stops, and that what
every round keeps holds where it stops. -/

namespace Sys2Proof.Machine

/-- One round of the loop of R160: what it adds to the findings, and the bytes it leaves to scan. -/
inductive ScanRound (c : Codec) (a : ScanAcc) : List Byte → ScanAcc → List Byte → Prop
  | noise {b : Byte} {rest : List Byte} (hb : b ≠ marker) :
      ScanRound c a (b :: rest) { a with noise := a.noise + 1 } rest
  | frame {rest : List Byte} {w : Frame} (hwin : window? (marker :: rest) = some w)
      (hres : resultOf (validate c w) = .ok) :
      ScanRound c a (marker :: rest) { a with frames := a.frames ++ [w] } ((marker :: rest).drop 16)
  | malformed {rest : List Byte} {w : Frame} (hwin : window? (marker :: rest) = some w)
      (hres : resultOf (validate c w) = .malformed) :
      ScanRound c a (marker :: rest) { a with mal := a.mal + 1 } rest
  | checksumMismatch {rest : List Byte} {w : Frame} (hwin : window? (marker :: rest) = some w)
      (hres : resultOf (validate c w) = .checksumMismatch) :
      ScanRound c a (marker :: rest) { a with ck := a.ck + 1 } rest

/-- What a scan can leave: nothing, or a marker with no whole window behind it (R152, R160). -/
def IsResidue (S : List Byte) : Prop := S = [] ∨ ∃ rest, S = marker :: rest ∧ rest.length ≤ 14

theorem isResidue_or_round (c : Codec) (a : ScanAcc) (S : List Byte) :
    IsResidue S ∨ ∃ a' T, ScanRound c a S a' T := by
  cases S with
  | nil => exact .inl (.inl rfl)
  | cons b rest =>
    by_cases hb : b = marker
    case neg => exact .inr ⟨_, _, .noise hb⟩
    subst hb
    cases hwin : window? (marker :: rest) with
    | none =>
      have hshort : (marker :: rest).length < 16 := (window?_eq_none_iff _).mp hwin
      exact .inl (.inr ⟨rest, rfl, by simpa [Nat.lt_succ_iff] using hshort⟩)
    | some w =>
      cases hres : resultOf (validate c w) with
      | ok => exact .inr ⟨_, _, .frame hwin hres⟩
      | malformed => exact .inr ⟨_, _, .malformed hwin hres⟩
      | checksumMismatch => exact .inr ⟨_, _, .checksumMismatch hwin hres⟩

variable {c : Codec} {a a' : ScanAcc} {S T : List Byte}

/-- R62: a round consumes bytes of the head, each counted once. -/
theorem ScanRound.consumed_eq (round : ScanRound c a S a' T) :
    a'.consumed + T.length = a.consumed + S.length := by
  cases round with
  | noise | malformed | checksumMismatch =>
    simp only [ScanAcc.consumed, List.length_cons]
    omega
  | frame hwin =>
    obtain ⟨rest, hS⟩ := (window?_eq_some_iff _ _).mp hwin
    simp only [hS, ScanAcc.consumed, List.length_append, List.length_drop, List.length_singleton,
      Vector.length_toList]
    omega

theorem ScanRound.length_lt (round : ScanRound c a S a' T) : T.length < S.length := by
  cases round with
  | noise | malformed | checksumMismatch => exact Nat.lt_succ_self _
  | frame =>
    simp only [List.length_drop, List.length_cons]
    omega

theorem ScanRound.suffix (round : ScanRound c a S a' T) : T <:+ S := by
  cases round with
  | noise | malformed | checksumMismatch => exact List.suffix_cons _ _
  | frame => exact List.drop_suffix _ _

/-- A round adds only frames that validate. -/
theorem ScanRound.frames_valid (round : ScanRound c a S a' T)
    (hvalid : ∀ w ∈ a.frames, resultOf (validate c w) = .ok) :
    ∀ w ∈ a'.frames, resultOf (validate c w) = .ok := by
  cases round with
  | noise | malformed | checksumMismatch => exact hvalid
  | frame hwin hres => exact List.forall_mem_append.mpr ⟨hvalid, List.forall_mem_singleton.mpr hres⟩

theorem ScanRound.scanLoop_succ (round : ScanRound c a S a' T) (n : Nat) :
    scanLoop c (n + 1) a S = scanLoop c n a' T := by
  cases round with
  | noise hb => rw [scanLoop, if_pos hb]
  | frame hwin hres | malformed hwin hres | checksumMismatch hwin hres => simp [scanLoop, hwin, hres]

theorem IsResidue.scanLoop_eq (hS : IsResidue S) (c : Codec) (n : Nat) (a : ScanAcc) :
    scanLoop c n a S = a.stop S := by
  cases n with
  | zero => rfl
  | succ n =>
    rcases hS with rfl | ⟨rest, rfl, hlen⟩
    · rfl
    · have hwin : window? (marker :: rest) = none :=
        (window?_eq_none_iff _).mpr (by simpa [Nat.lt_succ_iff] using hlen)
      simp [scanLoop, hwin]

/-- Fuel for every byte is enough: how much more there is changes nothing. -/
theorem scanLoop_fuel (c : Codec) (n m : Nat) (a : ScanAcc) (S : List Byte) (hn : S.length ≤ n)
    (hm : S.length ≤ m) : scanLoop c n a S = scanLoop c m a S := by
  induction n generalizing m a S with
  | zero =>
    have hS : IsResidue S := .inl (List.length_eq_zero_iff.mp (Nat.le_zero.mp hn))
    rw [hS.scanLoop_eq, hS.scanLoop_eq]
  | succ n ih =>
    rcases isResidue_or_round c a S with hS | ⟨a', T, round⟩
    · rw [hS.scanLoop_eq, hS.scanLoop_eq]
    · have hlt : T.length < S.length := round.length_lt
      obtain ⟨m, rfl⟩ := Nat.exists_eq_succ_of_ne_zero (Nat.ne_zero_of_lt (hlt.trans_le hm))
      rw [round.scanLoop_succ, round.scanLoop_succ]
      exact ih m a' T (by omega) (by omega)

theorem IsResidue.scanFrom_eq (hS : IsResidue S) (c : Codec) (a : ScanAcc) : scanFrom c a S = a.stop S :=
  hS.scanLoop_eq c _ a

theorem ScanRound.scanFrom_eq (round : ScanRound c a S a' T) : scanFrom c a S = scanFrom c a' T :=
  calc scanLoop c S.length a S
      = scanLoop c (S.length + 1) a S := scanLoop_fuel c _ _ a S le_rfl (Nat.le_succ _)
    _ = scanLoop c S.length a' T := round.scanLoop_succ _
    _ = scanLoop c T.length a' T := scanLoop_fuel c _ _ a' T round.length_lt.le le_rfl

/-- The induction over a scan: what holds at its start and is kept by every round holds where it stops. -/
theorem scanFrom_stops (Q : ScanAcc → List Byte → Prop)
    (hround : ∀ {a a' S T}, ScanRound c a S a' T → Q a S → Q a' T) (a : ScanAcc) (S : List Byte)
    (hstart : Q a S) : ∃ a' R, scanFrom c a S = a'.stop R ∧ IsResidue R ∧ Q a' R := by
  induction hlen : S.length using Nat.strong_induction_on generalizing a S with
  | _ n ih =>
    rcases isResidue_or_round c a S with hS | ⟨a', T, round⟩
    · exact ⟨a, S, hS.scanFrom_eq c a, hS, hstart⟩
    · rw [round.scanFrom_eq]
      exact ih T.length (hlen ▸ round.length_lt) a' T (hround round hstart) rfl

/-- Where a scan of a whole sequence can be: every byte is consumed or still there, the frames found
validate, and what is left is the end of the sequence. -/
structure ScanProgress (c : Codec) (whole : List Byte) (a : ScanAcc) (S : List Byte) : Prop where
  bytes : a.consumed + S.length = whole.length
  valid : ∀ w ∈ a.frames, resultOf (validate c w) = .ok
  suffix : S <:+ whole

theorem ScanProgress.start (c : Codec) (whole : List Byte) : ScanProgress c whole .empty whole where
  bytes := Nat.zero_add _
  valid := by simp [ScanAcc.empty]
  suffix := List.suffix_rfl

theorem ScanRound.progress (round : ScanRound c a S a' T) {whole : List Byte}
    (h : ScanProgress c whole a S) : ScanProgress c whole a' T where
  bytes := round.consumed_eq.trans h.bytes
  valid := round.frames_valid h.valid
  suffix := round.suffix.trans h.suffix

/-- Settles O51: every round of the scan keeps `ScanProgress`, so it holds where the scan stops. -/
theorem scanConsumesEveryByteOnce : Obligations.ScanConsumesEveryByteOnce := by
  unfold Obligations.ScanConsumesEveryByteOnce
  intro c S
  obtain ⟨a, R, hscan, hresidue, hbytes, hvalid, hsuffix⟩ :=
    scanFrom_stops (ScanProgress c S) (fun round => round.progress) .empty S (.start c S)
  rw [scan, hscan]
  exact ⟨hbytes, hvalid, hresidue, hsuffix⟩

end Sys2Proof.Machine
end

section
/-! The other direction of packing (20_memory.md R55): a port is fixed by its bytes. -/

namespace Sys2Proof.Machine

/-- Bit i of a port is bit i % 8 of byte 15 - i / 8. -/
theorem getLsbD_eq_unpack (v : BitVec 128) (i : Nat) (hi : i < 128) :
    v.getLsbD i = (unpack v)[15 - i / 8].getLsbD (i % 8) := by
  have hbit : 120 - 8 * (15 - i / 8) + i % 8 = i := by omega
  have hoffset : i % 8 < 8 := Nat.mod_lt _ (by decide)
  simp [unpack, hbit, hoffset]

theorem unpack_injective : Function.Injective unpack := by
  intro u v huv
  apply BitVec.eq_of_getLsbD_eq
  intro i hi
  rw [getLsbD_eq_unpack u i hi, getLsbD_eq_unpack v i hi, huv]

theorem pack_unpack (v : BitVec 128) : pack (unpack v) = v :=
  unpack_injective (unpack_pack (unpack v))

/-- Settles O7: unpacking reads the bytes R55 names, and packing is its inverse. -/
theorem packingPlacesEveryByte : Obligations.PackingPlacesEveryByte := by
  unfold Obligations.PackingPlacesEveryByte
  refine ⟨fun w k => ?_, unpack_pack, pack_unpack⟩
  calc (pack w).extractLsb' (120 - 8 * k.val) 8
      = (unpack (pack w))[k] := by simp [unpack]
    _ = w[k] := by rw [unpack_pack]

end Sys2Proof.Machine
end

section
/-! Where the model stops (20_memory.md R53, 10_state.md R33). -/

namespace Sys2Proof.Machine

theorem pop_eq_fault {n : Nat} {s : State} (hshort : s.bufCnt < n) : pop n s = .fault .bufferUnderrun :=
  if_neg (Nat.not_le.mpr hshort)

theorem takeRejection_eq_fault (P : Params) (r : Rejection) {s : State} (hbuf : s.bufCnt < 1) :
    takeRejection P r s = .fault .bufferUnderrun := by
  rw [takeRejection, pop_eq_fault hbuf, andThen_fault]

theorem discardWith_eq_fault (P : Params) {s : State} (hbuf : s.bufCnt < 1) :
    discardWith P s = .fault .bufferUnderrun := by
  rw [discardWith, pop_eq_fault hbuf, andThen_fault]

theorem emitWith_eq_fault (P : Params) {s : State} (hshort : s.bufCnt < 16) :
    emitWith P s = .fault .bufferUnderrun := by
  have hwin : window? s.buf = none := (window?_eq_none_iff _).mpr hshort
  simp [emitWith, hwin]

/-- No row of the operation map is for phase 3 (R33, R84). -/
theorem decodeOpsel_reserved : ∀ (z f m o : Bool) (r : BitVec 2),
    decodeOpsel (opselBits .reserved z f m o r) = none := by decide

theorem stepWith_of_reserved (P : Params) {s : State} (hphase : s.phase = .reserved)
    (hrst : s.pins.rst = false) : stepWith P s = .fault .reservedPhase := by
  have hnoReset : ¬ Instr.reset ∈ transfers (s.xsel P) := by simp [reset_mem_transfers, hrst]
  have hnoRow : decodeOpsel (s.opsel P.toCodec) = none := by
    rw [s.opsel_eq_opselBits, hphase, decodeOpsel_reserved]
  simp [stepWith, cycleStep, cycleInstrs, hnoReset, hnoRow]

/-- Settles O23: Pop and BufRead fault on too few bytes, and phase 3 selects nothing but a reset. -/
theorem stopsAreUnderrunAndReservedPhase : Obligations.StopsAreUnderrunAndReservedPhase := by
  unfold Obligations.StopsAreUnderrunAndReservedPhase
  intro stops
  have hstops (P : Params) : stops (execWith P) (stepWith P) := by
    refine ⟨fun s hbuf => ?_, fun s => emitWith_eq_fault P, fun s => stepWith_of_reserved P,
      fun s _ hrst => ⟨_, stepWith_of_reset hrst, rfl⟩⟩
    have hempty : s.bufCnt < 1 := by simp [State.bufCnt, hbuf]
    exact ⟨discardWith_eq_fault P hempty, takeRejection_eq_fault P _ hempty,
      takeRejection_eq_fault P _ hempty⟩
  exact ⟨exec_eq_execWith ▸ step_eq_stepWith ▸ hstops defaultParams, hstops⟩

end Sys2Proof.Machine
end

section
/-! The digits of a frame, said once (30_encoding.md R71; 40_validator.md R121, R122): a character class
holds exactly the spellings of its digit values, so reading a digit and spelling it are inverse. -/

namespace Sys2Proof.Machine

theorem isDec_iff (b : Byte) : isDec b = true ↔ 0x30#8 ≤ b ∧ b ≤ 0x39#8 := by
  simp [isDec]

/-- The class HEX, written out (R71). -/
theorem isHex_iff (hc : HexCase) (b : Byte) :
    isHex hc b = true ↔ (0x30#8 ≤ b ∧ b ≤ 0x39#8) ∨ (hc = .upper ∧ 0x41#8 ≤ b ∧ b ≤ 0x46#8) ∨
      (hc = .lower ∧ 0x61#8 ≤ b ∧ b ≤ 0x66#8) := by
  cases hc <;> simp [isHex, isDec, isUpperLetter, isLowerLetter]

theorem digit_of_isDec {b : Byte} (hb : isDec b = true) : digit b = b.toNat - 0x30 :=
  if_pos hb

theorem digit_lt_of_isDec {b : Byte} (hb : isDec b = true) : digit b < 10 := by
  rw [digit_of_isDec hb]
  rw [isDec_iff] at hb
  bv_omega

/-- A DEC byte spells its digit value. -/
theorem ofNat_digit_of_isDec {b : Byte} (hb : isDec b = true) : BitVec.ofNat 8 (0x30 + digit b) = b := by
  rw [digit_of_isDec hb]
  rw [isDec_iff] at hb
  bv_omega

theorem toNat_decDigit (n k : Nat) : (decDigit n k).toNat = 0x30 + n / 10 ^ k % 10 := by
  have hdigit : n / 10 ^ k % 10 < 10 := Nat.mod_lt _ (by decide)
  rw [decDigit, BitVec.toNat_ofNat, Nat.mod_eq_of_lt (by omega)]

@[simp] theorem isDec_decDigit (n k : Nat) : isDec (decDigit n k) = true := by
  have hdigit : n / 10 ^ k % 10 < 10 := Nat.mod_lt _ (by decide)
  rw [isDec_iff, BitVec.le_def, BitVec.le_def, toNat_decDigit]
  simp
  omega

@[simp] theorem digit_decDigit (n k : Nat) : digit (decDigit n k) = n / 10 ^ k % 10 := by
  rw [digit_of_isDec (isDec_decDigit n k), toNat_decDigit, Nat.add_sub_cancel_left]

@[simp] theorem isHex_hexDigit (hc : HexCase) : ∀ x : BitVec 4, isHex hc (hexDigit hc x) = true := by
  cases hc <;> decide

@[simp] theorem digit_hexDigit (hc : HexCase) : ∀ x : BitVec 4, digit (hexDigit hc x) = x.toNat := by
  cases hc <;> decide

/-- Every HEX byte is the spelling of a nibble. -/
theorem exists_hexDigit_of_isHex {hc : HexCase} {b : Byte} (hb : isHex hc b = true) :
    ∃ x : BitVec 4, hexDigit hc x = b := by
  rcases (isHex_iff hc b).mp hb with hdec | ⟨rfl, hletter⟩ | ⟨rfl, hletter⟩
  · refine ⟨BitVec.ofNat 4 (b.toNat - 0x30), ?_⟩
    unfold hexDigit
    rw [if_pos (by bv_omega)]
    bv_omega
  · refine ⟨BitVec.ofNat 4 (b.toNat - 0x41 + 10), ?_⟩
    unfold hexDigit
    rw [if_neg (by bv_omega)]
    bv_omega
  · refine ⟨BitVec.ofNat 4 (b.toNat - 0x61 + 10), ?_⟩
    unfold hexDigit
    rw [if_neg (by bv_omega)]
    bv_omega

theorem digit_lt_of_isHex {hc : HexCase} {b : Byte} (hb : isHex hc b = true) : digit b < 16 := by
  obtain ⟨x, rfl⟩ := exists_hexDigit_of_isHex hb
  rw [digit_hexDigit]
  exact x.isLt

/-- A HEX byte spells its digit value. -/
theorem hexDigit_digit {hc : HexCase} {b : Byte} (hb : isHex hc b = true) :
    hexDigit hc (BitVec.ofNat 4 (digit b)) = b := by
  obtain ⟨x, rfl⟩ := exists_hexDigit_of_isHex hb
  rw [digit_hexDigit, BitVec.ofNat_toNat, BitVec.setWidth_eq]

/-! The fields of several digits, most significant first (R56). -/

/-- Reading the four digits of Dec4 gives the number back (R121). -/
theorem digits4_dec4 {n : Nat} (hn : n ≤ 9999) :
    digits4 10 (decDigit n 3) (decDigit n 2) (decDigit n 1) (decDigit n 0) = n := by
  simp only [digits4, digit_decDigit]
  omega

theorem digits4_le_of_isDec {a b c d : Byte} (ha : isDec a = true) (hb : isDec b = true)
    (hc : isDec c = true) (hd : isDec d = true) : digits4 10 a b c d ≤ 9999 := by
  have := digit_lt_of_isDec ha
  have := digit_lt_of_isDec hb
  have := digit_lt_of_isDec hc
  have := digit_lt_of_isDec hd
  simp only [digits4]
  omega

/-- Four DEC bytes are Dec4 of their value (R121). -/
theorem dec4_digits4 {a b c d : Byte} (ha : isDec a = true) (hb : isDec b = true) (hc : isDec c = true)
    (hd : isDec d = true) : dec4 (digits4 10 a b c d) = #v[a, b, c, d] := by
  have ha' := digit_lt_of_isDec ha
  have hb' := digit_lt_of_isDec hb
  have hc' := digit_lt_of_isDec hc
  have hd' := digit_lt_of_isDec hd
  have hthree : digits4 10 a b c d / 10 ^ 3 % 10 = digit a := by simp only [digits4]; omega
  have htwo : digits4 10 a b c d / 10 ^ 2 % 10 = digit b := by simp only [digits4]; omega
  have hone : digits4 10 a b c d / 10 ^ 1 % 10 = digit c := by simp only [digits4]; omega
  have hzero : digits4 10 a b c d / 10 ^ 0 % 10 = digit d := by simp only [digits4]; omega
  simp only [dec4, decDigit, hthree, htwo, hone, hzero, ofNat_digit_of_isDec, ha, hb, hc, hd]

theorem toNat_nibble {n : Nat} (v : BitVec n) (k : Nat) :
    (v.extractLsb' k 4).toNat = v.toNat / 2 ^ k % 16 := by
  rw [BitVec.extractLsb'_toNat, Nat.shiftRight_eq_div_pow]

/-- Reading the four digits of Hex4 gives the value back (R122). -/
theorem digits4_hex4 (hc : HexCase) (v : BitVec 16) :
    digits4 16 (hexDigit hc (v.extractLsb' 12 4)) (hexDigit hc (v.extractLsb' 8 4))
      (hexDigit hc (v.extractLsb' 4 4)) (hexDigit hc (v.extractLsb' 0 4)) = v.toNat := by
  have hv : v.toNat < 65536 := v.isLt
  simp only [digits4, digit_hexDigit, toNat_nibble]
  omega

/-- A nibble of a number is the digit at its place. -/
theorem nibble_ofNat (n N k : Nat) {x : Nat} (hx : N % 2 ^ n / 2 ^ k % 16 = x) :
    (BitVec.ofNat n N).extractLsb' k 4 = BitVec.ofNat 4 x := by
  apply BitVec.eq_of_toNat_eq
  rw [toNat_nibble, BitVec.toNat_ofNat, BitVec.toNat_ofNat, hx]
  omega

/-- Four HEX bytes are Hex4 of their value (R122). -/
theorem hex4_digits4 {hc : HexCase} {a b c d : Byte} (ha : isHex hc a = true) (hb : isHex hc b = true)
    (hc' : isHex hc c = true) (hd : isHex hc d = true) :
    hex4 hc (BitVec.ofNat 16 (digits4 16 a b c d)) = #v[a, b, c, d] := by
  have := digit_lt_of_isHex ha
  have := digit_lt_of_isHex hb
  have := digit_lt_of_isHex hc'
  have := digit_lt_of_isHex hd
  have hthree := nibble_ofNat 16 (digits4 16 a b c d) 12 (x := digit a) (by simp only [digits4]; omega)
  have htwo := nibble_ofNat 16 (digits4 16 a b c d) 8 (x := digit b) (by simp only [digits4]; omega)
  have hone := nibble_ofNat 16 (digits4 16 a b c d) 4 (x := digit c) (by simp only [digits4]; omega)
  have hzero := nibble_ofNat 16 (digits4 16 a b c d) 0 (x := digit d) (by simp only [digits4]; omega)
  simp only [hex4, hthree, htwo, hone, hzero, hexDigit_digit, ha, hb, hc', hd]

/-- Reading the two digits of Hex2 gives the value back (R122). -/
theorem digits_hex2 (hc : HexCase) (v : BitVec 8) :
    16 * digit (hexDigit hc (v.extractLsb' 4 4)) + digit (hexDigit hc (v.extractLsb' 0 4)) = v.toNat := by
  have hv : v.toNat < 256 := v.isLt
  simp only [digit_hexDigit, toNat_nibble]
  omega

/-- Two HEX bytes are Hex2 of their value (R122). -/
theorem hex2_digits {hc : HexCase} {a b : Byte} (ha : isHex hc a = true) (hb : isHex hc b = true) :
    hex2 hc (BitVec.ofNat 8 (16 * digit a + digit b)) = #v[a, b] := by
  have := digit_lt_of_isHex ha
  have := digit_lt_of_isHex hb
  have hone := nibble_ofNat 8 (16 * digit a + digit b) 4 (x := digit a) (by omega)
  have hzero := nibble_ofNat 8 (16 * digit a + digit b) 0 (x := digit b) (by omega)
  simp only [hex2, hone, hzero, hexDigit_digit, ha, hb]

end Sys2Proof.Machine
end

section
/-! The validator and the encoder, said once (30_encoding.md R81, R82; 40_validator.md R100 to R124): when a
window is structurally valid, and that Validate and Encode are inverse on the valid windows. -/

namespace Sys2Proof.Machine

/-- Structural validity is a condition on each byte but the command byte (R101 to R106). -/
theorem structureOk_iff (hc : HexCase) (w : Frame) :
    structureOk hc w = true ↔ w[0] = marker ∧
      (∀ k : Fin 16, k.val ∈ [1, 2, 3, 4, 6, 7, 8, 9] → isDec w[k] = true) ∧
      (∀ k : Fin 16, k.val ∈ [10, 11, 12, 13, 14, 15] → isHex hc w[k] = true) := by
  simp [structureOk, markerOk, stationOk, commandOk, dataNumberOk, dataValueOk, checksumCharsOk,
    Fin.forall_fin_succ, and_assoc]

variable {c : Codec} {w : Frame}

/-- The digits of a structurally valid window: the station's and the data number's are DEC (R102, R103). -/
theorem isDec_of_structureOk {hc : HexCase} (hw : structureOk hc w = true) (k : Fin 16)
    (hk : k.val ∈ [1, 2, 3, 4, 6, 7, 8, 9]) : isDec w[k] = true :=
  ((structureOk_iff hc w).mp hw).2.1 k hk

/-- The digits of the data value and of the checksum are HEX (R105, R106). -/
theorem isHex_of_structureOk {hc : HexCase} (hw : structureOk hc w = true) (k : Fin 16)
    (hk : k.val ∈ [10, 11, 12, 13, 14, 15]) : isHex hc w[k] = true :=
  ((structureOk_iff hc w).mp hw).2.2 k hk

/-- A window is OK exactly where it is structurally valid and its checksum agrees; its fields are then
read from its digits (R111). -/
theorem validate_eq_ok_iff (f : Fields) :
    validate c w = .ok f ↔ structureOk c.hexCase w = true ∧ checksumOk c w = true ∧ f = fieldsOf w := by
  by_cases hw : structureOk c.hexCase w = true <;> by_cases hck : checksumOk c w = true <;>
    simp [validate, hw, hck, eq_comm]

theorem resultOf_validate_eq_malformed_iff :
    resultOf (validate c w) = .malformed ↔ structureOk c.hexCase w = false := by
  by_cases hw : structureOk c.hexCase w = true <;> by_cases hck : checksumOk c w = true <;>
    simp [validate, hw, hck, resultOf]

theorem resultOf_validate_eq_checksumMismatch_iff :
    resultOf (validate c w) = .checksumMismatch ↔
      structureOk c.hexCase w = true ∧ checksumField w ≠ c.checksumFn (body w) := by
  by_cases hw : structureOk c.hexCase w = true <;>
    by_cases hck : checksumField w = c.checksumFn (body w) <;>
      simp [validate, checksumOk, hw, hck, resultOf]

/-! The fields of a structurally valid window spell its bytes. -/

section
variable {hc : HexCase} (hw : structureOk hc w = true)
include hw

theorem station_toNat_eq : (station w).toNat = digits4 10 w[1] w[2] w[3] w[4] ∧ (station w).toNat ≤ 9999 := by
  have hle : digits4 10 w[1] w[2] w[3] w[4] ≤ 9999 :=
    digits4_le_of_isDec (isDec_of_structureOk hw 1 (by decide)) (isDec_of_structureOk hw 2 (by decide))
      (isDec_of_structureOk hw 3 (by decide)) (isDec_of_structureOk hw 4 (by decide))
  rw [station, BitVec.toNat_ofNat, Nat.mod_eq_of_lt (by omega)]
  exact ⟨rfl, hle⟩

theorem dataNumber_toNat_eq :
    (dataNumber w).toNat = digits4 10 w[6] w[7] w[8] w[9] ∧ (dataNumber w).toNat ≤ 9999 := by
  have hle : digits4 10 w[6] w[7] w[8] w[9] ≤ 9999 :=
    digits4_le_of_isDec (isDec_of_structureOk hw 6 (by decide)) (isDec_of_structureOk hw 7 (by decide))
      (isDec_of_structureOk hw 8 (by decide)) (isDec_of_structureOk hw 9 (by decide))
  rw [dataNumber, BitVec.toNat_ofNat, Nat.mod_eq_of_lt (by omega)]
  exact ⟨rfl, hle⟩

theorem dec4_station : dec4 (station w).toNat = #v[w[1], w[2], w[3], w[4]] := by
  rw [(station_toNat_eq hw).1]
  exact dec4_digits4 (isDec_of_structureOk hw 1 (by decide)) (isDec_of_structureOk hw 2 (by decide))
    (isDec_of_structureOk hw 3 (by decide)) (isDec_of_structureOk hw 4 (by decide))

theorem dec4_dataNumber : dec4 (dataNumber w).toNat = #v[w[6], w[7], w[8], w[9]] := by
  rw [(dataNumber_toNat_eq hw).1]
  exact dec4_digits4 (isDec_of_structureOk hw 6 (by decide)) (isDec_of_structureOk hw 7 (by decide))
    (isDec_of_structureOk hw 8 (by decide)) (isDec_of_structureOk hw 9 (by decide))

theorem hex4_dataValue : hex4 hc (dataValue w) = #v[w[10], w[11], w[12], w[13]] :=
  hex4_digits4 (isHex_of_structureOk hw 10 (by decide)) (isHex_of_structureOk hw 11 (by decide))
    (isHex_of_structureOk hw 12 (by decide)) (isHex_of_structureOk hw 13 (by decide))

theorem hex2_checksumField : hex2 hc (checksumField w) = #v[w[14], w[15]] :=
  hex2_digits (isHex_of_structureOk hw 14 (by decide)) (isHex_of_structureOk hw 15 (by decide))

/-- The body that Encode builds from the fields is the window's own (R120). -/
theorem encodeBody_fields :
    encodeBody hc (station w).toNat w[5] (dataNumber w).toNat (dataValue w) = body w := by
  simp [encodeBody, dec4_station hw, dec4_dataNumber hw, hex4_dataValue hw, body]

/-- A structurally valid window is put together from its body and its checksum field. -/
theorem assemble_body : assemble hc (body w) (checksumField w) = w := by
  have hmarker : w[0] = marker := ((structureOk_iff hc w).mp hw).1
  apply Vector.ext
  intro k hk
  interval_cases k <;> simp [assemble, hex2_checksumField hw, body, hmarker]

end

/-- A valid window is the encoding of its fields (R124 (b)). -/
theorem encodeFrame_of_validate {f : Fields} (hok : validate c w = .ok f) :
    encodeFrame c f.station.toNat f.command f.dataNumber.toNat f.dataValue = some w := by
  obtain ⟨hw, hck, rfl⟩ := (validate_eq_ok_iff f).mp hok
  have hck : checksumField w = c.checksumFn (body w) := by simpa [checksumOk] using hck
  rw [encodeFrame_eq_some_iff]
  refine ⟨⟨(station_toNat_eq hw).2, (dataNumber_toNat_eq hw).2⟩, ?_⟩
  calc w = assemble c.hexCase (body w) (c.checksumFn (body w)) := by rw [← hck, assemble_body hw]
    _ = _ := by simp only [fieldsOf, command, encodeBody_fields hw]

/-! What Encode puts together is read back (R124 (a)). -/

section
variable (hc : HexCase) (st dn : Nat) (cmd ck : Byte) (dv : BitVec 16)

/-- Every byte of an encoding is in its class. -/
theorem structureOk_assemble : structureOk hc (assemble hc (encodeBody hc st cmd dn dv) ck) = true := by
  simp [structureOk, markerOk, stationOk, commandOk, dataNumberOk, dataValueOk, checksumCharsOk, assemble,
    encodeBody, dec4, hex4, hex2]

theorem body_assemble (b : Body) : body (assemble hc b ck) = b := by
  apply Vector.ext
  intro k hk
  interval_cases k <;> rfl

/-- The fields of an encoding are those it was built from. -/
theorem fieldsOf_assemble (hst : st ≤ 9999) (hdn : dn ≤ 9999) :
    fieldsOf (assemble hc (encodeBody hc st cmd dn dv) ck) =
      ⟨BitVec.ofNat 14 st, cmd, BitVec.ofNat 14 dn, dv, ck⟩ := by
  simp [fieldsOf, station, command, dataNumber, dataValue, checksumField, assemble, encodeBody, dec4, hex4,
    hex2, digits4_dec4 hst, digits4_dec4 hdn, digits4_hex4, digits_hex2, -digit_hexDigit, -digit_decDigit]

end

/-- An encoding validates with the fields it was built from (R124 (a)). -/
theorem validate_of_encodeFrame {st dn : Nat} {cmd : Byte} {dv : BitVec 16}
    (henc : encodeFrame c st cmd dn dv = some w) :
    validate c w = .ok ⟨BitVec.ofNat 14 st, cmd, BitVec.ofNat 14 dn, dv, c.checksumFn (body w)⟩ := by
  obtain ⟨⟨hst, hdn⟩, rfl⟩ := (encodeFrame_eq_some_iff c st cmd dn dv w).mp henc
  have hfields := fieldsOf_assemble c.hexCase st dn cmd
    (c.checksumFn (encodeBody c.hexCase st cmd dn dv)) dv hst hdn
  rw [validate_eq_ok_iff, body_assemble]
  refine ⟨structureOk_assemble .., ?_, hfields.symm⟩
  rw [checksumOk, body_assemble, beq_iff_eq]
  exact congrArg Fields.checksum hfields

/-- Encode answers on operands in range (R120). -/
theorem exists_encodeFrame (c : Codec) {st dn : Nat} (cmd : Byte) (dv : BitVec 16) (hst : st ≤ 9999)
    (hdn : dn ≤ 9999) : ∃ w, encodeFrame c st cmd dn dv = some w :=
  ⟨_, (encodeFrame_eq_some_iff c st cmd dn dv _).mpr ⟨⟨hst, hdn⟩, rfl⟩⟩

/-- Settles O9: each case of R81 is the failure of one of the character checks, and the checksum is
compared only where none of them fails. -/
theorem illegalWindowsAreExactlyThese : Obligations.IllegalWindowsAreExactlyThese := by
  unfold Obligations.IllegalWindowsAreExactlyThese
  intro c w dec hex structural
  have hstructural : structural ↔ ¬ structureOk c.hexCase w = true := by
    simp only [structural, dec, hex, structureOk_iff, isDec_iff, isHex_iff, marker, not_and_or, not_forall,
      exists_prop, ne_eq]
  rw [resultOf_validate_eq_malformed_iff, resultOf_validate_eq_checksumMismatch_iff, hstructural,
    Bool.not_eq_true, Bool.not_eq_false]
  exact ⟨Iff.rfl, Iff.rfl⟩

end Sys2Proof.Machine
end

section
/-! The frame classes (30_encoding.md R79), said once: the class of a frame with what it asks of the fields,
and what an instruction of a class encodes and executes to. -/

namespace Sys2Proof.Machine

/-- The instruction of a frame's class, with what the class asks of the frame's fields (R79). -/
inductive ClassOf (f : Fields) : Instr → Prop
  | wCurfloor (hcmd : f.command = cmdW) (hdn : f.dataNumber = 1#14) :
      ClassOf f (.wCurfloor f.station f.dataValue)
  | wDestfloor (hcmd : f.command = cmdW) (hdn : f.dataNumber = 2#14) :
      ClassOf f (.wDestfloor f.station f.dataValue)
  | wLoad (hcmd : f.command = cmdW) (hdn : f.dataNumber = 3#14) : ClassOf f (.wLoad f.station f.dataValue)
  | wOtherdn (hcmd : f.command = cmdW) (hdn1 : f.dataNumber ≠ 1#14) (hdn2 : f.dataNumber ≠ 2#14)
      (hdn3 : f.dataNumber ≠ 3#14) : ClassOf f (.wOtherdn f.station f.dataNumber f.dataValue)
  | othercmd (hcmd : f.command ≠ cmdW) :
      ClassOf f (.othercmd f.station f.command f.dataNumber f.dataValue)

/-- Every frame is of the class that `classify` names (R79). -/
theorem classOf_classify (f : Fields) : ClassOf f (classify f) := by
  unfold classify
  split
  next hcmd =>
    split
    next hdn => exact .wCurfloor hcmd hdn
    next hdn1 =>
      split
      next hdn => exact .wDestfloor hcmd hdn
      next hdn2 =>
        split
        next hdn => exact .wLoad hcmd hdn
        next hdn3 => exact .wOtherdn hcmd hdn1 hdn2 hdn3
  next hcmd => exact .othercmd hcmd

variable {f : Fields} {i : Instr}

/-- The classes exclude each other (R79). -/
theorem ClassOf.classify_eq (hclass : ClassOf f i) : classify f = i := by
  cases hclass with
  | wCurfloor hcmd hdn | wDestfloor hcmd hdn | wLoad hcmd hdn => simp [classify, hcmd, hdn]
  | wOtherdn hcmd hdn1 hdn2 hdn3 => simp [classify, hcmd, hdn1, hdn2, hdn3]
  | othercmd hcmd => simp [classify, hcmd]

/-- The checksum field has no part in the class (R79, R82). -/
theorem classify_checksum (f : Fields) (ck : BitVec 8) : classify { f with checksum := ck } = classify f := rfl

/-- The word of a frame instruction is the frame its fields encode (R82, R120). -/
theorem ClassOf.encode_eq (hclass : ClassOf f i) (c : Codec) :
    encode c i =
      (encodeFrame c f.station.toNat f.command f.dataNumber.toNat f.dataValue).map .frame := by
  cases hclass with
  | wCurfloor hcmd hdn | wDestfloor hcmd hdn | wLoad hcmd hdn =>
    rw [hcmd, hdn]
    rfl
  | wOtherdn hcmd =>
    rw [hcmd]
    rfl
  | othercmd => rfl

/-- A frame instruction emits the frame its fields encode (R147). -/
theorem ClassOf.execWith_eq (hclass : ClassOf f i) (P : Params) (s : State) :
    execWith P i s = emitFields P f.station.toNat f.command f.dataNumber.toNat f.dataValue s := by
  cases hclass with
  | wCurfloor hcmd hdn | wDestfloor hcmd hdn | wLoad hcmd hdn =>
    rw [hcmd, hdn]
    rfl
  | wOtherdn hcmd =>
    rw [hcmd]
    rfl
  | othercmd => rfl

/-- A frame instruction is well formed where its fields are in range (R120). -/
theorem ClassOf.wellFormed (hclass : ClassOf f i) (hst : f.station.toNat ≤ 9999)
    (hdn : f.dataNumber.toNat ≤ 9999) : i.wellFormed = true := by
  cases hclass with
  | wCurfloor | wDestfloor | wLoad => simpa [Instr.wellFormed] using hst
  | wOtherdn hcmd hdn1 hdn2 hdn3 => simp [Instr.wellFormed, hst, hdn, hdn1, hdn2, hdn3]
  | othercmd hcmd => simp [Instr.wellFormed, hst, hdn, hcmd]

/-! The decoder on frames. -/

variable {c : Codec} {w : Frame}

/-- A frame decodes exactly where it is valid, to its class (R79, R111). -/
theorem decodeFrame_eq_instr_iff :
    decodeFrame c w = .instr i ↔ ∃ f, validate c w = .ok f ∧ ClassOf f i := by
  constructor
  · intro hdec
    unfold decodeFrame at hdec
    split at hdec
    next f hok => exact ⟨f, hok, Decoded.instr.inj hdec ▸ classOf_classify f⟩
    next => cases hdec
    next => cases hdec
  · rintro ⟨f, hok, hclass⟩
    simp [decodeFrame, hok, hclass.classify_eq]

/-- A frame is the encoding of the fields it decodes to (R124 (b)). -/
theorem exists_fields_of_decodeFrame (hdec : decodeFrame c w = .instr i) :
    ∃ f, ClassOf f i ∧ structureOk c.hexCase w = true ∧ f = fieldsOf w ∧
      encodeFrame c f.station.toNat f.command f.dataNumber.toNat f.dataValue = some w := by
  obtain ⟨f, hok, hclass⟩ := decodeFrame_eq_instr_iff.mp hdec
  exact ⟨f, hclass, ((validate_eq_ok_iff f).mp hok).1, eq_fieldsOf_of_validate hok,
    encodeFrame_of_validate hok⟩

/-- A frame instruction with fields in range has a word that decodes to it (R82, R124 (a)). -/
theorem ClassOf.decode_encode (hclass : ClassOf f i) (c : Codec) (hst : f.station.toNat ≤ 9999)
    (hdn : f.dataNumber.toNat ≤ 9999) : ∃ w, encode c i = some w ∧ decode c w = .instr i := by
  obtain ⟨w, hw⟩ := exists_encodeFrame c f.command f.dataValue hst hdn
  have hok : validate c w = .ok { f with checksum := c.checksumFn (body w) } := by
    simpa using validate_of_encodeFrame hw
  refine ⟨.frame w, by rw [hclass.encode_eq, hw, Option.map_some], ?_⟩
  simp [decode, decodeFrame, hok, classify_checksum, hclass.classify_eq]

/-- Settles O4: a frame class encodes the fields it holds, which validate and classify back to it; each
selector row's `match` value is decoded by its own row. -/
theorem decodeOfEncodeIsIdentity : Obligations.DecodeOfEncodeIsIdentity := by
  unfold Obligations.DecodeOfEncodeIsIdentity
  intro c i hwf
  cases i with
  | wCurfloor st v =>
    have hclass : ClassOf ⟨st, cmdW, 1#14, v, 0⟩ (.wCurfloor st v) := .wCurfloor rfl rfl
    exact hclass.decode_encode c (by simpa [Instr.wellFormed] using hwf) (by simp)
  | wDestfloor st v =>
    have hclass : ClassOf ⟨st, cmdW, 2#14, v, 0⟩ (.wDestfloor st v) := .wDestfloor rfl rfl
    exact hclass.decode_encode c (by simpa [Instr.wellFormed] using hwf) (by simp)
  | wLoad st v =>
    have hclass : ClassOf ⟨st, cmdW, 3#14, v, 0⟩ (.wLoad st v) := .wLoad rfl rfl
    exact hclass.decode_encode c (by simpa [Instr.wellFormed] using hwf) (by simp)
  | wOtherdn st dn v =>
    simp only [Instr.wellFormed, Bool.and_eq_true, decide_eq_true_eq, bne_iff_ne] at hwf
    obtain ⟨⟨⟨⟨hst, hdn⟩, hdn1⟩, hdn2⟩, hdn3⟩ := hwf
    have hclass : ClassOf ⟨st, cmdW, dn, v, 0⟩ (.wOtherdn st dn v) := .wOtherdn rfl hdn1 hdn2 hdn3
    exact hclass.decode_encode c hst hdn
  | othercmd st cmd dn v =>
    simp only [Instr.wellFormed, Bool.and_eq_true, decide_eq_true_eq, bne_iff_ne] at hwf
    obtain ⟨⟨hst, hcmd⟩, hdn⟩ := hwf
    have hclass : ClassOf ⟨st, cmd, dn, v, 0⟩ (.othercmd st cmd dn v) := .othercmd hcmd
    exact hclass.decode_encode c hst hdn
  | none | idle | finishEmpty | discard | wait | finishPartial | hold | emit | rejectMalformed
  | rejectChecksum | accept | fire | shutdown | reset => exact ⟨_, rfl, rfl⟩

/-- Settles O5: a frame that decodes is the encoding of its own fields, which are in range. -/
theorem encodeOfDecodedFrameIsTheFrame : Obligations.EncodeOfDecodedFrameIsTheFrame := by
  unfold Obligations.EncodeOfDecodedFrameIsTheFrame
  intro c w i hdec
  obtain ⟨f, hclass, -, -, henc⟩ := exists_fields_of_decodeFrame hdec
  obtain ⟨⟨hst, hdn⟩, -⟩ := (encodeFrame_eq_some_iff ..).mp henc
  exact ⟨hclass.wellFormed hst hdn, by rw [hclass.encode_eq, henc, Option.map_some]⟩

/-! Executing a frame. -/

/-- Settles O17: EMIT loads the window, and a frame instruction the encoding of its fields; for a frame
that decodes they are the same 16 bytes (R124 (b)). -/
theorem emitIsTheFrameInstruction : Obligations.EmitIsTheFrameInstruction := by
  unfold Obligations.EmitIsTheFrameInstruction
  intro effects
  have heffects (P : Params) : effects P (execWith P) := by
    intro s w rest i hbuf hdec
    obtain ⟨f, hclass, -, -, henc⟩ := exists_fields_of_decodeFrame hdec
    calc execWith P .emit s = emitFrame P w s := by simp [execWith, emitWith, hbuf]
      _ = emitFields P f.station.toNat f.command f.dataNumber.toNat f.dataValue s := by
        simp [emitFields, henc]
      _ = execWith P i s := (hclass.execWith_eq P s).symm
  exact ⟨exec_eq_execWith ▸ heffects defaultParams, heffects⟩

/-- On operands in range and a full window, the encoded frame is emitted and nothing else changes (R147). -/
theorem exists_emitFields_eq_next (P : Params) {st dn : Nat} (cmd : Byte) (dv : BitVec 16) {s : State}
    (hst : st ≤ 9999) (hdn : dn ≤ 9999) (hlen : 16 ≤ s.buf.length) :
    ∃ w, encodeFrame P.toCodec st cmd dn dv = some w ∧
      emitFields P st cmd dn dv s = .next ((s.dropHead 16).load P w) := by
  obtain ⟨w, hw⟩ := exists_encodeFrame P.toCodec cmd dv hst hdn
  exact ⟨w, hw, (emitFields_eq_next_iff ..).mpr ⟨w, hw, hlen, rfl⟩⟩

/-- Settles O16: each class is `emitFields` of its operands, whose effect is whole in
`exists_emitFields_eq_next`. -/
theorem frameInstructionsEmitTheirFrame : Obligations.FrameInstructionsEmitTheirFrame := by
  unfold Obligations.FrameInstructionsEmitTheirFrame
  intro effects
  have heffects (P : Params) : effects P (execWith P) := by
    intro s st dn cmd v hst hdn hlen
    exact ⟨exists_emitFields_eq_next P cmdW v hst (by decide) hlen,
      exists_emitFields_eq_next P cmdW v hst (by decide) hlen,
      exists_emitFields_eq_next P cmdW v hst (by decide) hlen,
      exists_emitFields_eq_next P cmdW v hst hdn hlen, exists_emitFields_eq_next P cmd v hst hdn hlen⟩
  exact ⟨exec_eq_execWith ▸ heffects defaultParams, heffects⟩

end Sys2Proof.Machine
end

section
/-! The rows of the opcode table as bit patterns (30_encoding.md R83, R87). -/

namespace Sys2Proof.Machine

/-! The frame-class rows over the packed window (R83). -/

/-- The high nibble of a DEC byte (R71). -/
theorem and_highNibble_of_isDec {b : Byte} (hb : isDec b = true) : b &&& 0xF0#8 = 0x30#8 := by
  have hdigit := digit_lt_of_isDec hb
  rw [← ofNat_digit_of_isDec hb]
  generalize digit b = d at hdigit
  interval_cases d <;> rfl

theorem and_highNibble_of_structureOk {hc : HexCase} {w : Frame} (hw : structureOk hc w = true) (k : Fin 16)
    (hk : k.val ∈ [1, 2, 3, 4, 6, 7, 8, 9]) : w[k] &&& 0xF0#8 = 0x30#8 :=
  and_highNibble_of_isDec (isDec_of_structureOk hw k hk)

theorem hexDigit_and_highBit (hc : HexCase) : ∀ x : BitVec 4, hexDigit hc x &&& 0x80#8 = 0x00#8 := by
  cases hc <;> decide

/-- The high bit of a HEX byte (R71). -/
theorem and_highBit_of_isHex {hc : HexCase} {b : Byte} (hb : isHex hc b = true) : b &&& 0x80#8 = 0x00#8 := by
  obtain ⟨x, rfl⟩ := exists_hexDigit_of_isHex hb
  exact hexDigit_and_highBit hc x

theorem unpack_and (u v : BitVec 128) (k : Nat) (hk : k < 16) :
    (unpack (u &&& v))[k] = (unpack u)[k] &&& (unpack v)[k] := by
  simp [unpack, BitVec.extractLsb'_and]

/-- Masking a packed window masks each of its bytes (R55). -/
theorem pack_and_pack (w mask : Frame) : pack w &&& pack mask = pack (Vector.zipWith (· &&& ·) w mask) := by
  apply unpack_injective
  apply Vector.ext
  intro k hk
  simp [unpack_and, unpack_pack]

/-- The mask of a frame-class row, with its bytes for the command and for the data number's digits: all of
the marker, the high nibble of each station digit, the high bit of each HEX byte (R83). -/
def rowMask (cmd dn : Byte) : Frame :=
  #v[0xFF, 0xF0, 0xF0, 0xF0, 0xF0, cmd, dn, dn, dn, dn, 0x80, 0x80, 0x80, 0x80, 0x80, 0x80]

/-- The match value of a frame-class row, with its bytes for the command and the data number (R83). -/
def rowPattern (cmd : Byte) (dn : Vector Byte 4) : Frame :=
  #v[marker, 0x30, 0x30, 0x30, 0x30, cmd, dn[0], dn[1], dn[2], dn[3], 0, 0, 0, 0, 0, 0]

/-- A structurally valid window lies in a row whose command and data number it meets. -/
theorem pack_and_rowMask {hc : HexCase} {w : Frame} (hw : structureOk hc w = true) {cmdMask cmd dnMask : Byte}
    {dn : Vector Byte 4} (hcmd : w[5] &&& cmdMask = cmd)
    (hdn : #v[w[6] &&& dnMask, w[7] &&& dnMask, w[8] &&& dnMask, w[9] &&& dnMask] = dn) :
    pack w &&& pack (rowMask cmdMask dnMask) = pack (rowPattern cmd dn) := by
  have hmarker : w[0] &&& 0xFF#8 = marker := by rw [((structureOk_iff hc w).mp hw).1]; rfl
  have hdec := and_highNibble_of_structureOk hw
  have hhex (k : Fin 16) (hk : k.val ∈ [10, 11, 12, 13, 14, 15]) : w[k] &&& 0x80#8 = 0x00#8 :=
    and_highBit_of_isHex (isHex_of_structureOk hw k hk)
  subst hcmd hdn
  rw [pack_and_pack]
  congr 1
  apply Vector.ext
  intro k hk
  rw [Vector.getElem_zipWith]
  interval_cases k
  · exact hmarker
  · exact hdec 1 (by decide)
  · exact hdec 2 (by decide)
  · exact hdec 3 (by decide)
  · exact hdec 4 (by decide)
  · rfl
  · rfl
  · rfl
  · rfl
  · rfl
  · exact hhex 10 (by decide)
  · exact hhex 11 (by decide)
  · exact hhex 12 (by decide)
  · exact hhex 13 (by decide)
  · exact hhex 14 (by decide)
  · exact hhex 15 (by decide)

/-- The row of a W class with one data number holds every window of that command and number (R83). -/
theorem pack_and_rowMask_dataNumber {hc : HexCase} {w : Frame} (hw : structureOk hc w = true)
    (hcmd : w[5] = cmdW) {n : BitVec 14} (hdn : dataNumber w = n) :
    pack w &&& pack (rowMask 0xFF#8 0xFF#8) = pack (rowPattern cmdW (dec4 n.toNat)) := by
  apply pack_and_rowMask hw
  · rw [hcmd]
    rfl
  · have hall (b : Byte) : b &&& 0xFF#8 = b := BitVec.and_allOnes
    rw [← hdn, dec4_dataNumber hw]
    simp only [hall]

/-- The row of a class with any data number holds every window that meets its command (R83). -/
theorem pack_and_rowMask_anyDataNumber {hc : HexCase} {w : Frame} (hw : structureOk hc w = true)
    {cmdMask cmd : Byte} (hcmd : w[5] &&& cmdMask = cmd) :
    pack w &&& pack (rowMask cmdMask 0xF0#8) = pack (rowPattern cmd #v[0x30#8, 0x30#8, 0x30#8, 0x30#8]) := by
  have hdec := and_highNibble_of_structureOk hw
  apply pack_and_rowMask hw hcmd
  congr
  · exact hdec 6 (by decide)
  · exact hdec 7 (by decide)
  · exact hdec 8 (by decide)
  · exact hdec 9 (by decide)

/-! The table's five rows are such patterns (R83). -/

section
variable (st dn : BitVec 14) (cmd : Byte) (v : BitVec 16)

theorem frameRow_wCurfloor : frameRow (.wCurfloor st v) =
    some (pack (rowPattern cmdW (dec4 (1#14).toNat)), pack (rowMask 0xFF#8 0xFF#8)) :=
  congrArg some (Prod.ext (by decide) (by decide))

theorem frameRow_wDestfloor : frameRow (.wDestfloor st v) =
    some (pack (rowPattern cmdW (dec4 (2#14).toNat)), pack (rowMask 0xFF#8 0xFF#8)) :=
  congrArg some (Prod.ext (by decide) (by decide))

theorem frameRow_wLoad : frameRow (.wLoad st v) =
    some (pack (rowPattern cmdW (dec4 (3#14).toNat)), pack (rowMask 0xFF#8 0xFF#8)) :=
  congrArg some (Prod.ext (by decide) (by decide))

theorem frameRow_wOtherdn : frameRow (.wOtherdn st dn v) =
    some (pack (rowPattern cmdW #v[0x30#8, 0x30#8, 0x30#8, 0x30#8]), pack (rowMask 0xFF#8 0xF0#8)) :=
  congrArg some (Prod.ext (by decide) (by decide))

theorem frameRow_othercmd : frameRow (.othercmd st cmd dn v) =
    some (pack (rowPattern 0x00#8 #v[0x30#8, 0x30#8, 0x30#8, 0x30#8]), pack (rowMask 0x00#8 0xF0#8)) :=
  congrArg some (Prod.ext (by decide) (by decide))

end

/-- Settles O6: the table's rows are the packed masks and patterns of the classes, and a valid window meets
them byte by byte. -/
theorem frameMatchesItsTableRow : Obligations.FrameMatchesItsTableRow := by
  unfold Obligations.FrameMatchesItsTableRow
  intro c w i hdec
  obtain ⟨f, hclass, hw, rfl, -⟩ := exists_fields_of_decodeFrame hdec
  cases hclass with
  | wCurfloor hcmd hdn => exact ⟨_, _, frameRow_wCurfloor .., pack_and_rowMask_dataNumber hw hcmd hdn⟩
  | wDestfloor hcmd hdn => exact ⟨_, _, frameRow_wDestfloor .., pack_and_rowMask_dataNumber hw hcmd hdn⟩
  | wLoad hcmd hdn => exact ⟨_, _, frameRow_wLoad .., pack_and_rowMask_dataNumber hw hcmd hdn⟩
  | wOtherdn hcmd =>
    have hbyte : w[5] &&& 0xFF#8 = cmdW := by rw [show w[5] = cmdW from hcmd]; rfl
    exact ⟨_, _, frameRow_wOtherdn .., pack_and_rowMask_anyDataNumber hw hbyte⟩
  | othercmd hcmd =>
    exact ⟨_, _, frameRow_othercmd .., pack_and_rowMask_anyDataNumber hw BitVec.and_zero⟩

/-! The selector rows (R87). -/

/-- Two rows that apply to one vector agree on the bits that both fix. -/
theorem pat_and_mask_eq_of_rowApplies {n : Nat} {v : BitVec n} {r r' : SelRow n}
    (hr : rowApplies v r = true) (hr' : rowApplies v r' = true) : r.pat &&& r'.mask = r'.pat &&& r.mask := by
  simp only [rowApplies, beq_iff_eq] at hr hr'
  rw [← hr, ← hr', BitVec.and_assoc, BitVec.and_assoc, BitVec.and_comm r.mask]

/-- Any two rows of the operation map differ on a bit that both fix (R84, R87). -/
theorem opselRows_disjoint : ∀ r ∈ opselRows, ∀ r' ∈ opselRows,
    r.pat &&& r'.mask = r'.pat &&& r.mask → r = r' := by decide

/-- Settles O2: the masks of XSEL read the bits of each rule's condition, and any two rows of the operation
map differ on a bit that both fix. -/
theorem selectorRowsApplyExactlyWhen : Obligations.SelectorRowsApplyExactlyWhen := by
  unfold Obligations.SelectorRowsApplyExactlyWhen
  refine ⟨fun P s => ⟨reset_mem_transfers P s, ?_, ?_, ?_⟩, fun v r r' hmem hmem' hr hr' =>
    opselRows_disjoint r hmem r' hmem' (pat_and_mask_eq_of_rowApplies hr hr')⟩
  · rw [accept_mem_transfers, Bool.and_eq_true, Bool.not_eq_true', State.accepts_iff, State.bufCnt]
  · rw [fire_mem_transfers, Bool.and_eq_true, Bool.not_eq_true', State.fires, Bool.and_eq_true]
  · rw [shutdown_mem_transfers, Bool.and_eq_true, Bool.not_eq_true', State.stops_iff]

/-- Settles O1: each word is decoded by evaluating the model on it. -/
theorem wordsDecodeToTheirInstructions : Obligations.WordsDecodeToTheirInstructions := by
  unfold Obligations.WordsDecodeToTheirInstructions
  refine ⟨?_, ?_, ?_, ?_, ?_, ?_, ?_, ?_, ?_⟩ <;> decide

end Sys2Proof.Machine
end

section
/-! The round trip of Validate and Encode, and the values of the fields (40_validator.md R111 to R116, R120,
R124). -/

namespace Sys2Proof.Machine

/-- A result OK comes with the fields of the window (R100, R111). -/
theorem resultOf_eq_ok_iff (v : Verdict) : resultOf v = .ok ↔ ∃ f, v = .ok f := by
  cases v <;> simp [resultOf]

theorem resultOf_validate_eq_ok_iff {c : Codec} {w : Frame} :
    resultOf (validate c w) = .ok ↔
      structureOk c.hexCase w = true ∧ checksumField w = c.checksumFn (body w) := by
  simp [resultOf_eq_ok_iff, validate_eq_ok_iff, checksumOk]

/-- Settles O8: Encode answers on operands in range with a frame that reads back (`validate_of_encodeFrame`),
and a valid window is put together from its own fields (`encodeFrame_of_validate`). -/
theorem validateEncodeRoundTrip : Obligations.ValidateEncodeRoundTrip := by
  unfold Obligations.ValidateEncodeRoundTrip
  constructor
  · intro c st cmd dn dv hst hdn
    obtain ⟨w, henc⟩ := exists_encodeFrame c cmd dv hst hdn
    exact ⟨w, henc, validate_of_encodeFrame henc⟩
  · intro c w hok
    obtain ⟨f, hok⟩ := (resultOf_eq_ok_iff _).mp hok
    cases eq_fieldsOf_of_validate hok
    exact encodeFrame_of_validate hok

section
variable {hc : HexCase} {w : Frame} (hw : structureOk hc w = true)
include hw

/-- Four HEX digits fill 16 bits without truncation (R115). -/
theorem dataValue_toNat_eq : (dataValue w).toNat = digits4 16 w[10] w[11] w[12] w[13] := by
  have h10 : digit w[10] < 16 := digit_lt_of_isHex (isHex_of_structureOk hw 10 (by decide))
  have h11 : digit w[11] < 16 := digit_lt_of_isHex (isHex_of_structureOk hw 11 (by decide))
  have h12 : digit w[12] < 16 := digit_lt_of_isHex (isHex_of_structureOk hw 12 (by decide))
  have h13 : digit w[13] < 16 := digit_lt_of_isHex (isHex_of_structureOk hw 13 (by decide))
  rw [dataValue, BitVec.toNat_ofNat, Nat.mod_eq_of_lt (by simp only [digits4]; omega)]

/-- Two HEX digits fill 8 bits without truncation (R116). -/
theorem checksumField_toNat_eq : (checksumField w).toNat = 16 * digit w[14] + digit w[15] := by
  have h14 : digit w[14] < 16 := digit_lt_of_isHex (isHex_of_structureOk hw 14 (by decide))
  have h15 : digit w[15] < 16 := digit_lt_of_isHex (isHex_of_structureOk hw 15 (by decide))
  rw [checksumField, BitVec.toNat_ofNat, Nat.mod_eq_of_lt (by omega)]

end

theorem digit_of_isUpperLetter {b : Byte} (hb : isUpperLetter b = true) : digit b = b.toNat - 0x41 + 10 := by
  have hdec : ¬ isDec b = true := by
    simp only [isUpperLetter, Bool.and_eq_true, decide_eq_true_eq] at hb
    rw [isDec_iff]
    bv_omega
  rw [digit, if_neg hdec, if_pos hb]

theorem digit_of_isLowerLetter {b : Byte} (hb : isLowerLetter b = true) : digit b = b.toNat - 0x61 + 10 := by
  have hdec : ¬ isDec b = true := by
    simp only [isLowerLetter, Bool.and_eq_true, decide_eq_true_eq] at hb
    rw [isDec_iff]
    bv_omega
  have hupper : ¬ isUpperLetter b = true := by
    simp only [isLowerLetter, isUpperLetter, Bool.and_eq_true, decide_eq_true_eq] at hb ⊢
    bv_omega
  rw [digit, if_neg hdec, if_neg hupper, if_pos hb]

/-- Settles O10: the digits of a valid window are in their classes, so each field holds its digits' value
without truncation. -/
theorem fieldsAreTheirDigitsValues : Obligations.FieldsAreTheirDigitsValues := by
  unfold Obligations.FieldsAreTheirDigitsValues
  constructor
  · intro c w f hok
    obtain ⟨hw, -, rfl⟩ := (validate_eq_ok_iff f).mp hok
    obtain ⟨hstation, hstation_le⟩ := station_toNat_eq hw
    obtain ⟨hdataNumber, hdataNumber_le⟩ := dataNumber_toNat_eq hw
    have hdataValue := dataValue_toNat_eq hw
    simp only [digits4] at hstation hdataNumber hdataValue
    refine ⟨?_, hstation_le, rfl, ?_, hdataNumber_le, ?_, checksumField_toNat_eq hw⟩ <;>
      simp only [fieldsOf] <;> omega
  · intro b
    refine ⟨fun hlo hhi => digit_of_isDec ?_, fun hlo hhi => digit_of_isUpperLetter ?_,
      fun hlo hhi => digit_of_isLowerLetter ?_⟩
    · simp [isDec, hlo, hhi]
    · simp [isUpperLetter, hlo, hhi]
    · simp [isLowerLetter, hlo, hhi]

end Sys2Proof.Machine
end

section
/-! One changed byte (40_validator.md R108, R109 (c), R125): which check reads it, and what the others still
read. -/

namespace Sys2Proof.Machine

/-- SUM8 is the sum of its bytes in the ring of bytes, modulo 256 (R108). -/
theorem sum8_eq_sum (b : Body) : sum8 b = b.toList.sum := by
  have hsum (l : List Byte) : BitVec.ofNat 8 (l.map BitVec.toNat).sum = l.sum := by
    induction l with
    | nil => rfl
    | cons x l ih => rw [List.map_cons, List.sum_cons, List.sum_cons, BitVec.ofNat_add, ih,
        BitVec.ofNat_toNat, BitVec.setWidth_eq]
  exact hsum b.toList

/-- A changed byte moves SUM8 by its difference. -/
theorem sum8_set (b : Body) (k : Fin 13) (x : Byte) : sum8 (b.set k.val x) = sum8 b + (-b[k] + x) := by
  rw [sum8_eq_sum, sum8_eq_sum, Vector.toList_set, List.sum_set']
  simp

/-- Settles O11: changing one byte moves the sum by the difference of the two bytes (`sum8_set`), which is
not 0 modulo 256. -/
theorem sumEightNoticesEveryChangedByte : Obligations.SumEightNoticesEveryChangedByte := by
  unfold Obligations.SumEightNoticesEveryChangedByte SingleByteSensitive
  intro b k x hx heq
  rw [sum8_set, add_eq_left, neg_add_eq_zero] at heq
  exact hx heq.symm

/-- The character class of an offset (R71, R101 to R106): what the validator asks of the byte there. -/
def classOk (hc : HexCase) (k : Fin 16) (b : Byte) : Bool :=
  if k.val = 0 then b == marker
  else if k.val = 5 then true
  else if k.val ≤ 9 then isDec b
  else isHex hc b

/-- A window is structurally valid exactly where every byte is in the class of its offset (R110). -/
theorem structureOk_iff_forall_classOk (hc : HexCase) (w : Frame) :
    structureOk hc w = true ↔ ∀ k : Fin 16, classOk hc k w[k] = true := by
  rw [structureOk_iff]
  simp [classOk, Fin.forall_fin_succ, and_assoc]

section
variable (f : Frame) (k : Fin 16) (b : Byte)

theorem mutate_getElem_self : (mutate f k b)[k] = b := by simp [mutate]

theorem mutate_getElem_ne {j : Nat} (hj : j < 16) (hne : k.val ≠ j) : (mutate f k b)[j] = f[j] :=
  Vector.getElem_set_ne k.isLt hj hne

/-- A changed byte leaves the window structurally valid exactly where it stays in its class. -/
theorem structureOk_mutate {hc : HexCase} {f : Frame} (hf : structureOk hc f = true) :
    structureOk hc (mutate f k b) = classOk hc k b := by
  rw [structureOk_iff_forall_classOk] at hf
  rw [Bool.eq_iff_iff, structureOk_iff_forall_classOk]
  constructor
  · intro hall
    simpa only [mutate_getElem_self] using hall k
  · intro hclass j
    by_cases hjk : k = j
    · subst hjk
      rwa [mutate_getElem_self]
    · rw [Fin.getElem_fin, mutate_getElem_ne f k b j.isLt (Fin.val_ne_of_ne hjk)]
      exact hf j

/-- The body of a window is its bytes 1 to 13 (R107). -/
theorem body_getElem {j : Nat} (hj : j < 13) : (body f)[j] = f[j + 1] := by
  interval_cases j <;> rfl

/-- A changed byte at offsets 1 to 13 is one changed byte of the body. -/
theorem body_mutate {j : Nat} (hj : j < 13) (hk : k.val = j + 1) :
    body (mutate f k b) = (body f).set j b := by
  apply Vector.ext
  intro i hi
  rw [body_getElem _ hi, Vector.getElem_set hj, body_getElem _ hi]
  simp only [mutate, Vector.getElem_set, hk, Nat.add_right_cancel_iff]

/-- The marker and the checksum bytes have no part in the body (R107). -/
theorem body_mutate_of_not_body (hk : k.val = 0 ∨ 14 ≤ k.val) : body (mutate f k b) = body f := by
  apply Vector.ext
  intro i hi
  rw [body_getElem _ hi, body_getElem _ hi, mutate_getElem_ne f k b _ (by omega)]

/-- The checksum field is read from bytes 14 and 15 alone (R116). -/
theorem checksumField_mutate (hk : k.val ≤ 13) : checksumField (mutate f k b) = checksumField f := by
  simp only [checksumField, mutate_getElem_ne f k b (j := 14) (by decide) (by omega),
    mutate_getElem_ne f k b (j := 15) (by decide) (by omega)]

end

section
variable {c : Codec} {f : Frame} {k : Fin 16} {b : Byte}

/-- A valid window is determined by its body: the checksum bytes are spelled from it. -/
theorem eq_of_body_eq {w : Frame} (hf : resultOf (validate c f) = .ok) (hw : resultOf (validate c w) = .ok)
    (hbody : body f = body w) : f = w := by
  obtain ⟨hfs, hfck⟩ := resultOf_validate_eq_ok_iff.mp hf
  obtain ⟨hws, hwck⟩ := resultOf_validate_eq_ok_iff.mp hw
  calc f = assemble c.hexCase (body f) (checksumField f) := (assemble_body hfs).symm
    _ = assemble c.hexCase (body w) (checksumField w) := by rw [hfck, hwck, hbody]
    _ = w := assemble_body hws

/-- Out of its class, a changed byte makes the window MALFORMED (R110, R125). -/
theorem validate_mutate_malformed (hf : resultOf (validate c f) = .ok) (hclass : classOk c.hexCase k b = false) :
    resultOf (validate c (mutate f k b)) = .malformed := by
  obtain ⟨hfs, -⟩ := resultOf_validate_eq_ok_iff.mp hf
  rw [resultOf_validate_eq_malformed_iff, structureOk_mutate k b hfs, hclass]

/-- In its class, a changed byte of the body fails the checksum that notices it (R109 (c), R125). -/
theorem validate_mutate_checksumMismatch (hf : resultOf (validate c f) = .ok)
    (hclass : classOk c.hexCase k b = true) (hb : b ≠ f[k]) (hlow : 1 ≤ k.val) (hhigh : k.val ≤ 13)
    (hfn : SingleByteSensitive c.checksumFn) :
    resultOf (validate c (mutate f k b)) = .checksumMismatch := by
  obtain ⟨hfs, hck⟩ := resultOf_validate_eq_ok_iff.mp hf
  obtain ⟨j, hj⟩ : ∃ j, k.val = j + 1 := ⟨k.val - 1, by omega⟩
  have hj13 : j < 13 := by omega
  have hbj : b ≠ (body f)[j] := by simpa [body_getElem f hj13, hj] using hb
  rw [resultOf_validate_eq_checksumMismatch_iff, structureOk_mutate k b hfs, hclass,
    checksumField_mutate f k b hhigh, hck, body_mutate f k b hj13 hj]
  exact ⟨rfl, (hfn (body f) ⟨j, hj13⟩ b hbj).symm⟩

/-- A changed checksum byte is never OK: the body, and with it the spelling of its checksum, is the same
(R125). -/
theorem validate_mutate_checksum_ne_ok (hf : resultOf (validate c f) = .ok) (hb : b ≠ f[k])
    (hk : 14 ≤ k.val) : resultOf (validate c (mutate f k b)) ≠ .ok := by
  intro hok
  have hsame : mutate f k b = f := eq_of_body_eq hok hf (body_mutate_of_not_body f k b (.inr hk))
  exact hb (by rw [← mutate_getElem_self f k b, hsame])

end

/-- Settles O12: a byte that leaves its class fails a character check; one that stays in it changes the
body under an unchanged checksum field, or the checksum field under an unchanged body. -/
theorem changedByteIsRejected : Obligations.ChangedByteIsRejected := by
  unfold Obligations.ChangedByteIsRejected
  intro c f k b hf hb inClass
  refine ⟨fun hk => ?_, fun hlow hhigh hfn => ?_, validate_mutate_checksum_ne_ok hf hb⟩
  · obtain ⟨hfs, -⟩ := resultOf_validate_eq_ok_iff.mp hf
    have hmarker : f[k] = marker := by
      simpa [classOk, hk] using (structureOk_iff_forall_classOk _ f).mp hfs k
    have hne : b ≠ marker := hmarker ▸ hb
    exact validate_mutate_malformed hf (by simp [classOk, hk, hne])
  · have hclass : classOk c.hexCase k b = inClass := if_neg (by omega)
    cases hin : inClass with
    | true => simpa using validate_mutate_checksumMismatch hf (hclass.trans hin) hb hlow hhigh hfn
    | false => simpa using validate_mutate_malformed hf (hclass.trans hin)

end Sys2Proof.Machine
end

section
/-! Operands out of range (40_validator.md R120; 92_eei_decisions.md D27). -/

namespace Sys2Proof.Machine

theorem encodeFrame_eq_none_iff (c : Codec) (st : Nat) (cmd : Byte) (dn : Nat) (dv : BitVec 16) :
    encodeFrame c st cmd dn dv = none ↔ 9999 < st ∨ 9999 < dn := by
  simp only [encodeFrame, ite_eq_right_iff, reduceCtorEq, imp_false, not_and_or, Nat.not_le]

/-- What Encode does not answer is refused by name (model's choice: notes/assumptions/11.md). -/
theorem emitFields_eq_refused (P : Params) {st dn : Nat} (cmd : Byte) (dv : BitVec 16) (s : State)
    (hrange : 9999 < st ∨ 9999 < dn) : emitFields P st cmd dn dv s = .refused .operandRange := by
  rw [emitFields, (encodeFrame_eq_none_iff ..).mpr hrange]

/-- Settles O13: every frame class is `emitFields` of its operands. -/
theorem outOfRangeOperandsAreRefused : Obligations.OutOfRangeOperandsAreRefused := by
  unfold Obligations.OutOfRangeOperandsAreRefused
  refine ⟨encodeFrame_eq_none_iff, ?_⟩
  intro refuses
  have hrefuses (P : Params) : refuses (execWith P) := by
    intro s st dn cmd v
    exact ⟨fun hst => ⟨emitFields_eq_refused P cmdW v s (.inl hst), emitFields_eq_refused P cmdW v s (.inl hst),
        emitFields_eq_refused P cmdW v s (.inl hst)⟩,
      fun hrange => ⟨emitFields_eq_refused P cmdW v s hrange, emitFields_eq_refused P cmd v s hrange⟩⟩
  exact ⟨exec_eq_execWith ▸ hrefuses defaultParams, hrefuses⟩

end Sys2Proof.Machine
end

section
/-! The reading of a data value (40_validator.md R126 to R130), said once for each data number and sign. -/

namespace Sys2Proof.Machine

theorem floorOf_of_lt {v : BitVec 16} (hv : v.toNat < 0x8000) : floorOf v = ⟨v.toNat, false⟩ := by
  have hsext : sext16 v = v.toNat := if_neg (by omega)
  simp [floorOf, hsext]

theorem floorOf_of_le {v : BitVec 16} (hv : 0x8000 ≤ v.toNat) : floorOf v = ⟨65536 - v.toNat, true⟩ := by
  have hlt : v.toNat < 65536 := v.isLt
  have hsext : sext16 v = (v.toNat : Int) - 65536 := if_pos hv
  have hneg : ¬ (v.toNat : Int) - 65536 ≥ 0 := by omega
  have hn : (-((v.toNat : Int) - 65536)).toNat = 65536 - v.toNat := by omega
  simp only [floorOf, hsext, if_neg hneg, hn]

section
variable {f : Fields}

theorem interpret_currentFloor (hdn : f.dataNumber = 1#14) :
    interpret f = .currentFloor (floorOf f.dataValue) := if_pos hdn

theorem interpret_noDestination (hdn : f.dataNumber = 2#14) (hv : f.dataValue = 0#16) :
    interpret f = .noDestination := by
  simp [interpret, hdn, hv]

theorem interpret_destination (hdn : f.dataNumber = 2#14) (hv : f.dataValue ≠ 0#16) :
    interpret f = .destination (floorOf f.dataValue) := by
  simp [interpret, hdn, hv]

theorem interpret_load (hdn : f.dataNumber = 3#14) : interpret f = .loadKg f.dataValue.toNat := by
  simp [interpret, hdn]

theorem interpret_uninterpreted (hdn1 : f.dataNumber ≠ 1#14) (hdn2 : f.dataNumber ≠ 2#14)
    (hdn3 : f.dataNumber ≠ 3#14) : interpret f = .uninterpreted := by
  simp [interpret, hdn1, hdn2, hdn3]

/-- The command has no part in the reading (R130). -/
theorem interpret_command (f : Fields) (cmd : Byte) : interpret { f with command := cmd } = interpret f := rfl

end

/-- Settles O15: one equation of `interpret` for each data number, with the floor of each sign. -/
theorem dataValueIsReadByDataNumber : Obligations.DataValueIsReadByDataNumber := by
  unfold Obligations.DataValueIsReadByDataNumber
  intro f
  refine ⟨fun hdn => ⟨fun hlt => ?_, fun hle => ?_⟩, fun hdn => ⟨interpret_noDestination hdn,
    fun hne hlt => ?_, fun hle => ?_⟩, interpret_load, interpret_uninterpreted, interpret_command f,
    fun n => ⟨rfl, rfl⟩⟩
  · rw [interpret_currentFloor hdn, floorOf_of_lt hlt]
  · rw [interpret_currentFloor hdn, floorOf_of_le hle]
  · rw [interpret_destination hdn hne, floorOf_of_lt hlt]
  · have hne : f.dataValue ≠ 0#16 := fun hzero => by simp [hzero] at hle
    rw [interpret_destination hdn hne, floorOf_of_le hle]

end Sys2Proof.Machine
end

section
/-! The scan followed (41_framer.md R160 to R162): a scan operation of the block is a round of the reference
scan, and each part of a cycle keeps the state where the scan of its stream is. -/

namespace Sys2Proof.Machine

/-! Rounds on a sequence of which only the head is known yet. -/

theorem window?_append_of_window {l : List Byte} {w : Frame} (hwin : window? l = some w) (X : List Byte) :
    window? (l ++ X) = some w := by
  obtain ⟨rest, rfl⟩ := (window?_eq_some_iff _ _).mp hwin
  rw [List.append_assoc, window?_append]

/-- A round reads nothing behind its window, so it is the same whatever bytes follow. -/
theorem ScanRound.append {c : Codec} {a a' : ScanAcc} {S T : List Byte} (round : ScanRound c a S a' T)
    (X : List Byte) : ScanRound c a (S ++ X) a' (T ++ X) := by
  cases round with
  | noise hb => exact .noise hb
  | frame hwin hres =>
    obtain ⟨rest, hS⟩ := (window?_eq_some_iff _ _).mp hwin
    rw [← List.drop_append_of_le_length (by simp [hS])]
    exact .frame (window?_append_of_window hwin X) hres
  | malformed hwin hres => exact .malformed (window?_append_of_window hwin X) hres
  | checksumMismatch hwin hres => exact .checksumMismatch (window?_append_of_window hwin X) hres

theorem State.headIsMarker_iff (s : State) : s.headIsMarker = true ↔ ∃ rest, s.buf = marker :: rest := by
  unfold State.headIsMarker
  split
  next hbuf => simp [hbuf]
  next b rest hbuf => simp [hbuf]

theorem State.headIsMarker_eq_false {s : State} {b : Byte} {rest : List Byte} (hbuf : s.buf = b :: rest)
    (hb : b ≠ marker) : s.headIsMarker = false := by
  simpa [State.headIsMarker, hbuf] using hb

/-- A buffer with a marker at its head and no window is what a scan leaves (R152, R160). -/
theorem State.isResidue_of_no_window {s : State} (hhead : s.headIsMarker = true) (hwin : window? s.buf = none) :
    IsResidue s.buf := by
  obtain ⟨rest, hbuf⟩ := s.headIsMarker_iff.mp hhead
  have hshort : s.buf.length < 16 := (window?_eq_none_iff _).mp hwin
  exact .inr ⟨rest, hbuf, by simpa [hbuf, Nat.lt_succ_iff] using hshort⟩

/-! The parts of a cycle. -/

theorem wrapInc_mod (P : Params) (n : Nat) : wrapInc P (n % cntMod P) = (n + 1) % cntMod P :=
  Nat.mod_add_mod n (cntMod P) 1

section
variable {P : Params} {s : State} {a a' : ScanAcc} {T : List Byte}

theorem State.Tracks.tick (h : s.Tracks P a) : s.tick.Tracks P a := { h with }

/-- The frame in the output register moves to the frames taken. -/
theorem State.Tracks.fired (h : s.Tracks P a) : s.fired.Tracks P a := by
  unfold State.fired
  split
  next hfires =>
    have hvalid : s.outValid = true := (Bool.and_eq_true_iff.mp hfires).1
    exact { h with frames := by simp [h.frames, State.pending, hvalid] }
  next => exact h

theorem State.Tracks.startDrain (h : s.Tracks P a) (hrun : s.phase = .run) : s.startDrain.Tracks P a :=
  { h with
    scanning := fun _ => h.scanning (by simp [hrun])
    finished := by simp }

/-- The stream and the buffer grow by the same byte. -/
theorem State.Tracks.acceptByte (h : s.Tracks P a) (hrun : s.phase = .run) (b : Byte) :
    (s.acceptByte P b).Tracks P a :=
  { h with
    inCount := by simp [h.inCount, wrapInc_mod]
    bytes := by
      have hbytes := h.bytes
      simp only [State.bufCnt, State.acceptByte_stream, State.acceptByte_buf, State.acceptByte_residueLen,
        List.length_append, List.length_singleton] at hbytes ⊢
      omega
    scanning := fun _ X => by simpa using h.scanning (by simp [hrun]) ([b] ++ X)
    finished := by simp [hrun] }

theorem State.Tracks.scanning_of_round (h : s.Tracks P a) (hdone : s.phase ≠ .done)
    (round : ScanRound P.toCodec a s.buf a' T) (X : List Byte) :
    scan P.toCodec (s.stream ++ X) = scanFrom P.toCodec a' (T ++ X) :=
  (h.scanning hdone X).trans (round.append X).scanFrom_eq

theorem State.Tracks.bytes_of_round (h : s.Tracks P a) (round : ScanRound P.toCodec a s.buf a' T) :
    s.stream.length = a'.consumed + T.length + s.residueLen.toNat := by
  have hbytes := h.bytes
  have hround := round.consumed_eq
  simp only [State.bufCnt] at hbytes
  omega

theorem State.Tracks.countNoise (h : s.Tracks P a) (hdone : s.phase ≠ .done)
    (round : ScanRound P.toCodec a s.buf { a with noise := a.noise + 1 } (s.buf.drop 1)) :
    ((s.dropHead 1).countNoise P).Tracks P { a with noise := a.noise + 1 } :=
  { h with
    noiseCount := by simp [h.noiseCount, wrapInc_mod]
    bytes := h.bytes_of_round round
    scanning := fun _ => h.scanning_of_round hdone round
    finished := fun hend => absurd hend hdone }

theorem State.Tracks.countMalformed (h : s.Tracks P a) (hdone : s.phase ≠ .done)
    (round : ScanRound P.toCodec a s.buf { a with mal := a.mal + 1 } (s.buf.drop 1)) :
    ((s.dropHead 1).countRejection P .malformedFrame).Tracks P { a with mal := a.mal + 1 } :=
  { h with
    malCount := by simp [h.malCount, wrapInc_mod]
    bytes := h.bytes_of_round round
    scanning := fun _ => h.scanning_of_round hdone round
    finished := fun hend => absurd hend hdone }

theorem State.Tracks.countChecksumMismatch (h : s.Tracks P a) (hdone : s.phase ≠ .done)
    (round : ScanRound P.toCodec a s.buf { a with ck := a.ck + 1 } (s.buf.drop 1)) :
    ((s.dropHead 1).countRejection P .checksumMismatch).Tracks P { a with ck := a.ck + 1 } :=
  { h with
    ckCount := by simp [h.ckCount, wrapInc_mod]
    bytes := h.bytes_of_round round
    scanning := fun _ => h.scanning_of_round hdone round
    finished := fun hend => absurd hend hdone }

/-- Emitting needs the output register free: the frame loaded is then the one frame pending. -/
theorem State.Tracks.load (h : s.Tracks P a) (hdone : s.phase ≠ .done) (hfree : s.outValid = false) {w : Frame}
    (round : ScanRound P.toCodec a s.buf { a with frames := a.frames ++ [w] } (s.buf.drop 16)) :
    ((s.dropHead 16).load P w).Tracks P { a with frames := a.frames ++ [w] } :=
  { h with
    frames := by simp [h.frames, State.pending, hfree]
    frameCount := by simp [h.frameCount, wrapInc_mod]
    bytes := h.bytes_of_round round
    scanning := fun _ => h.scanning_of_round hdone round
    finished := fun hend => absurd hend hdone }

/-- FINISH where the scan of the buffer stops: what is dropped is the scan's residue. -/
theorem State.Tracks.finish (h : s.Tracks P a) (hdone : s.phase ≠ .done) (hzero : s.residueLen = 0#4)
    (hresidue : IsResidue s.buf) (hshort : s.bufCnt < 16) : s.finish.Tracks P a := by
  have hlen : s.finish.residueLen.toNat = s.bufCnt := by simpa using Nat.mod_eq_of_lt hshort
  exact
    { h with
      bytes := by
        have hbytes := h.bytes
        simp only [hlen, hzero, State.bufCnt, State.finish_stream, State.finish_buf, List.length_nil,
          BitVec.toNat_ofNat, Nat.zero_mod] at hbytes ⊢
        omega
      scanning := by simp
      finished := fun _ =>
        ⟨s.buf, by simpa [hresidue.scanFrom_eq] using h.scanning hdone [], hlen.symm⟩ }

end

/-! The operations, and the cycle. -/

section
variable {P : Params} {s : State} {a : ScanAcc}

/-- The cycle's FIRE has emptied the output register where it was free (R150). -/
theorem State.fired_outValid_of_outputFree (hfree : s.outputFree = true) : s.fired.outValid = false := by
  unfold State.fired
  split
  next => rfl
  next hfires =>
    cases hvalid : s.outValid with
    | false => rfl
    | true =>
      have hready : s.pins.outReady = true := by simpa [State.outputFree, hvalid] using hfree
      simp [State.fires, hvalid, hready] at hfires

/-- Every operation whose row applies is a round of the scan, or the end of it, or leaves it where it is. -/
theorem ActRow.scanned_followsScan {i : Instr} (row : ActRow P.toCodec s i) {u : State} (hu : u.Tracks P a)
    (hbuf : u.buf = s.buf) (hphase : u.phase = s.phase) (hzero : u.phase ≠ .done → u.residueLen = 0#4)
    (hout : s.outputFree = true → u.outValid = false) : (u.scanned P i).FollowsScan P := by
  have hscanning (hscan : s.Scanning) : u.phase ≠ .done := by
    rcases hscan with h | h <;> simp [hphase, h]
  have hmarker (hhead : s.headIsMarker = true) : ∃ rest, u.buf = marker :: rest :=
    hbuf ▸ s.headIsMarker_iff.mp hhead
  cases row with
  | none | idle | wait | hold => exact ⟨a, hu⟩
  | finishEmpty hdrain hempty =>
    have hdone : u.phase ≠ .done := hscanning (.inr hdrain)
    exact ⟨a, hu.finish hdone (hzero hdone) (.inl (hbuf.trans hempty)) (by simp [State.bufCnt, hbuf, hempty])⟩
  | finishPartial hdrain hhead hwin =>
    have hdone : u.phase ≠ .done := hscanning (.inr hdrain)
    have hresidue : IsResidue u.buf := hbuf ▸ State.isResidue_of_no_window hhead hwin
    exact ⟨a, hu.finish hdone (hzero hdone) hresidue (State.bufCnt_lt_of_no_window (hbuf ▸ hwin))⟩
  | discard hscan hne hhead =>
    obtain ⟨b, rest, hcons⟩ := List.exists_cons_of_ne_nil hne
    have hb : b ≠ marker := by simpa [State.headIsMarker, hcons] using hhead
    exact ⟨_, hu.countNoise (hscanning hscan) (by rw [hbuf, hcons]; exact .noise hb)⟩
  | rejectMalformed w hscan hhead hwin hfree hres =>
    obtain ⟨rest, hcons⟩ := hmarker hhead
    rw [← hbuf, hcons] at hwin
    exact ⟨_, hu.countMalformed (hscanning hscan) (by rw [hcons]; exact .malformed hwin hres)⟩
  | rejectChecksum w hscan hhead hwin hfree hres =>
    obtain ⟨rest, hcons⟩ := hmarker hhead
    rw [← hbuf, hcons] at hwin
    exact ⟨_, hu.countChecksumMismatch (hscanning hscan) (by rw [hcons]; exact .checksumMismatch hwin hres)⟩
  | emit w hscan hhead hwin hfree hres =>
    obtain ⟨rest, hcons⟩ := hmarker hhead
    rw [← hbuf] at hwin
    have hload : u.scanned P .emit = (u.dropHead 16).load P w := by simp [State.scanned, hwin]
    rw [hcons] at hwin
    rw [hload]
    exact ⟨_, hu.load (hscanning hscan) (hout hfree) (by rw [hcons]; exact .frame hwin hres)⟩

theorem State.FollowsScan.afterScan (hs : s.Inv P) (h : s.FollowsScan P) : (s.afterScan P).FollowsScan P := by
  obtain ⟨a, htracks⟩ := h
  exact (actRow_act P.toCodec hs.phaseLegal).scanned_followsScan htracks.fired s.fired_buf s.fired_phase
    hs.fired.residueOnce State.fired_outValid_of_outputFree

theorem State.FollowsScan.received (hs : s.Inv P) (h : s.FollowsScan P) :
    ((s.afterScan P).received P (s.accepts P) s.pins.inData).FollowsScan P := by
  obtain ⟨a, htracks⟩ := h.afterScan hs
  unfold State.received
  split
  next hacc =>
    obtain ⟨-, hrun, -⟩ := (s.accepts_iff P).mp hacc
    exact ⟨a, htracks.acceptByte (s.afterScan_phase_of_run P hrun) _⟩
  next => exact ⟨a, htracks⟩

theorem State.FollowsScan.afterCycle (hs : s.Inv P) (h : s.FollowsScan P) :
    (s.afterCycle P).FollowsScan P := by
  obtain ⟨a, htracks⟩ := h.received hs
  unfold State.afterCycle State.drained
  split
  next hstop =>
    obtain ⟨hrun, -⟩ := s.stops_iff.mp hstop
    exact ⟨a, htracks.startDrain (by rw [State.received_phase, s.afterScan_phase_of_run P hrun])⟩
  next => exact ⟨a, htracks⟩

/-- A step goes through from every safe state, to a safe one. -/
theorem State.Safe.exists_step (hs : s.Safe P) : ∃ t, stepWith P s = .next t ∧ t.Safe P := by
  obtain ⟨hinv, hfollows⟩ := hs
  cases hrst : s.pins.rst with
  | true =>
    exact ⟨_, stepWith_of_reset hrst, (s.resetRegisters_inv P).tick, .empty,
      (s.resetRegisters_tracks P).tick⟩
  | false =>
    obtain ⟨a, htracks⟩ := hfollows.afterCycle hinv
    exact ⟨_, stepWith_of_no_reset hinv.phaseLegal hrst, hinv.afterCycle.tick, a, htracks.tick⟩

end

/-- Settles O44: FIRE, the scan operation, ACCEPT and SHUTDOWN each keep the state where the scan is; the
scan operation is a round of the reference scan (`scanned_followsScan`). -/
theorem stepFollowsTheReferenceScan : Obligations.StepFollowsTheReferenceScan := by
  unfold Obligations.StepFollowsTheReferenceScan
  have hstep (P : Params) (s t : State) (hinv : s.Inv P) (hfollows : s.FollowsScan P)
      (ht : stepWith P s = .next t) : t.FollowsScan P := by
    obtain ⟨u, hu, hsafe⟩ := State.Safe.exists_step ⟨hinv, hfollows⟩
    cases hu.symm.trans ht
    exact hsafe.2
  exact ⟨hstep, step_eq_stepWith ▸ hstep defaultParams⟩

/-! Runs. -/

/-- The first cycle of a run, then the rest of it. -/
theorem run_succ_of_step {P : Params} {s t : State} (ht : stepWith P s = .next t) (k : Nat) :
    Host.Core.run (coreWith P) (k + 1) s = Host.Core.run (coreWith P) k t := by
  simp only [Host.Core.run]
  rw [show (coreWith P).step s = .next t from ht]

/-- The induction over a run: what lets a step go through and is kept by it lets every run go through. -/
theorem exists_run {P : Params} (Q : State → Prop)
    (hstep : ∀ s, Q s → ∃ t, stepWith P s = .next t ∧ Q t) (k : Nat) (s : State) (hs : Q s) :
    ∃ t : State, Host.Core.run (coreWith P) k s = .next t ∧ Q t := by
  induction k generalizing s with
  | zero => exact ⟨s, rfl, hs⟩
  | succ k ih =>
    obtain ⟨t, ht, hQ⟩ := hstep s hs
    obtain ⟨u, hu, hQu⟩ := ih t hQ
    exact ⟨u, (run_succ_of_step ht k).trans hu, hQu⟩

/-- Settles O45: safety lets a step go through and is kept by it, and the reset state is safe. -/
theorem noInputSequenceFails : Obligations.NoInputSequenceFails := by
  unfold Obligations.NoInputSequenceFails
  have hrun (P : Params) (k : Nat) (s : State) (hs : s.Safe P) :
      ∃ t : State, Host.Core.run (coreWith P) k s = .next t ∧ t.Safe P :=
    exists_run (fun s => s.Safe P) (fun _ => State.Safe.exists_step) k s hs
  refine ⟨hrun, fun P k ps => hrun P k _ ((resetStateIsSafe P).2 ps), fun k s hs => ?_⟩
  obtain ⟨t, ht, hsafe⟩ := hrun defaultParams k s hs
  exact ⟨t, (hostIsTheDefaultInstance k s).trans ht, hsafe⟩

end Sys2Proof.Machine
end

section
/-! The cycle, field by field (41_framer.md R156): what each part leaves, whole, and what a step without reset
answers. -/

namespace Sys2Proof.Machine

/-! Which row applies (R84). -/

section
variable {c : Codec} {s : State} {i : Instr}

theorem State.Scanning.legal (hscan : s.Scanning) : s.phase ≠ .reserved := by
  rcases hscan with hphase | hphase <;> simp [hphase]

/-- No row is for phase 3 (R33). -/
theorem ActRow.legal (row : ActRow c s i) : s.phase ≠ .reserved := by
  cases row with
  | none hphase | idle hphase | finishEmpty hphase | wait hphase | finishPartial hphase => simp [hphase]
  | discard hscan | hold w hscan | emit w hscan | rejectMalformed w hscan | rejectChecksum w hscan =>
    exact hscan.legal

/-- The rows exclude each other: they are told apart by the masks on one vector (R87, R142). -/
theorem ActRow.act_eq (row : ActRow c s i) : act c s = i :=
  Option.some.inj ((actRow_act c row.legal).decodeOpsel_eq.symm.trans row.decodeOpsel_eq)

end

/-- Settles O3: Act is the operation of the row that applies, and the masks select that row's operation. -/
theorem selectionIsFirstMatchingRow : Obligations.SelectionIsFirstMatchingRow := by
  unfold Obligations.SelectionIsFirstMatchingRow
  exact fun P s hlegal => (actRow_act P.toCodec hlegal).decodeOpsel_eq

/-! What each part of a cycle leaves, whole. -/

section
variable (P : Params) (s : State)

theorem State.fires_iff : s.fires = true ↔ s.outValid = true ∧ s.pins.outReady = true := by
  simp [State.fires]

theorem State.fired_eq :
    s.fired =
      { s with
        outValid := s.outValid && !s.pins.outReady
        taken := s.taken ++ if s.fires then [s.outRaw] else [] } := by
  unfold State.fired
  split
  next hfires => simp [State.deliver, (s.fires_iff.mp hfires).2]
  next hfires =>
    have hkept : (s.outValid && !s.pins.outReady) = s.outValid := by
      simpa [s.fires_iff] using hfires
    simp [hkept]

theorem State.scanned_eq (i : Instr) :
    s.scanned P i =
      { s with
        buf := s.buf.drop (popCount s i)
        noiseCnt := if i = .discard then wrapInc P s.noiseCnt else s.noiseCnt
        malCnt := if i = .rejectMalformed then wrapInc P s.malCnt else s.malCnt
        ckCnt := if i = .rejectChecksum then wrapInc P s.ckCnt else s.ckCnt
        frameCnt := if i = .emit then wrapInc P s.frameCnt else s.frameCnt
        phase := if i = .finishEmpty ∨ i = .finishPartial then .done else s.phase
        outValid := if i = .emit then true else s.outValid
        outRaw := if i = .emit then (window? s.buf).getD s.outRaw else s.outRaw
        residueLen :=
          if i = .finishEmpty ∨ i = .finishPartial then BitVec.ofNat 4 s.bufCnt else s.residueLen } := by
  cases i with
  | finishEmpty | finishPartial => simp [State.scanned, State.finish, popCount, State.bufCnt]
  | discard | rejectMalformed | rejectChecksum | emit | wCurfloor | wDestfloor | wLoad | wOtherdn | othercmd
  | none | idle | wait | hold | accept | fire | shutdown | reset => rfl

theorem State.received_eq (acc : Bool) (b : Byte) :
    s.received P acc b =
      { s with
        buf := s.buf ++ if acc then [b] else []
        inCnt := if acc then wrapInc P s.inCnt else s.inCnt
        stream := s.stream ++ if acc then [b] else [] } := by
  cases acc with
  | true => rfl
  | false => simp [State.received]

theorem State.drained_eq (stop : Bool) :
    s.drained stop = { s with phase := if stop then .drain else s.phase } := by
  cases stop <;> rfl

/-- The registers at the end of a cycle without reset, from those at its start (R156). -/
theorem State.afterCycle_eq :
    s.afterCycle P =
      { s with
        buf := s.buf.drop (popCount s (act P.toCodec s)) ++ if s.accepts P then [s.pins.inData] else []
        inCnt := if s.accepts P then wrapInc P s.inCnt else s.inCnt
        noiseCnt := if act P.toCodec s = .discard then wrapInc P s.noiseCnt else s.noiseCnt
        malCnt := if act P.toCodec s = .rejectMalformed then wrapInc P s.malCnt else s.malCnt
        ckCnt := if act P.toCodec s = .rejectChecksum then wrapInc P s.ckCnt else s.ckCnt
        frameCnt := if act P.toCodec s = .emit then wrapInc P s.frameCnt else s.frameCnt
        phase :=
          if s.stops then .drain
          else if act P.toCodec s = .finishEmpty ∨ act P.toCodec s = .finishPartial then .done
          else s.phase
        outValid := if act P.toCodec s = .emit then true else s.outValid && !s.pins.outReady
        outRaw := if act P.toCodec s = .emit then (window? s.buf).getD s.outRaw else s.outRaw
        residueLen :=
          if act P.toCodec s = .finishEmpty ∨ act P.toCodec s = .finishPartial then
            BitVec.ofNat 4 s.bufCnt
          else s.residueLen
        stream := s.stream ++ if s.accepts P then [s.pins.inData] else []
        taken := s.taken ++ if s.fires then [s.outRaw] else [] } := by
  rw [State.afterCycle, State.drained_eq, State.received_eq, State.afterScan, State.scanned_eq,
    popCount_congr s.fired_buf, State.fired_eq]
  rfl

end

/-! Its fields. -/

section
variable (P : Params) (s : State)

theorem State.afterCycle_noiseCnt :
    (s.afterCycle P).noiseCnt = if act P.toCodec s = .discard then wrapInc P s.noiseCnt else s.noiseCnt := by
  rw [s.afterCycle_eq]

theorem State.afterCycle_malCnt :
    (s.afterCycle P).malCnt =
      if act P.toCodec s = .rejectMalformed then wrapInc P s.malCnt else s.malCnt := by
  rw [s.afterCycle_eq]

theorem State.afterCycle_ckCnt :
    (s.afterCycle P).ckCnt = if act P.toCodec s = .rejectChecksum then wrapInc P s.ckCnt else s.ckCnt := by
  rw [s.afterCycle_eq]

theorem State.afterCycle_frameCnt :
    (s.afterCycle P).frameCnt = if act P.toCodec s = .emit then wrapInc P s.frameCnt else s.frameCnt := by
  rw [s.afterCycle_eq]

theorem State.afterCycle_phase :
    (s.afterCycle P).phase =
      if s.stops then .drain
      else if act P.toCodec s = .finishEmpty ∨ act P.toCodec s = .finishPartial then .done
      else s.phase := by
  rw [s.afterCycle_eq]

theorem State.afterCycle_outValid :
    (s.afterCycle P).outValid =
      if act P.toCodec s = .emit then true else s.outValid && !s.pins.outReady := by
  rw [s.afterCycle_eq]

theorem State.afterCycle_outRaw :
    (s.afterCycle P).outRaw =
      if act P.toCodec s = .emit then (window? s.buf).getD s.outRaw else s.outRaw := by
  rw [s.afterCycle_eq]

theorem State.afterCycle_residueLen :
    (s.afterCycle P).residueLen =
      if act P.toCodec s = .finishEmpty ∨ act P.toCodec s = .finishPartial then BitVec.ofNat 4 s.bufCnt
      else s.residueLen := by
  rw [s.afterCycle_eq]

theorem State.afterCycle_stream :
    (s.afterCycle P).stream = s.stream ++ if s.accepts P then [s.pins.inData] else [] := by
  rw [s.afterCycle_eq]

theorem State.afterCycle_taken :
    (s.afterCycle P).taken = s.taken ++ if s.fires then [s.outRaw] else [] := by
  rw [s.afterCycle_eq]

theorem State.afterCycle_schedule : (s.afterCycle P).schedule = s.schedule := by
  rw [s.afterCycle_eq]

theorem State.outputFree_iff : s.outputFree = true ↔ s.outValid = false ∨ s.pins.outReady = true := by
  simp [State.outputFree]

end

/-- FINISH is an operation of DRAIN alone (R151, R152). -/
theorem act_ne_finish (c : Codec) {s : State} (hlegal : s.phase ≠ .reserved) (hdrain : s.phase ≠ .drain) :
    ¬ (act c s = .finishEmpty ∨ act c s = .finishPartial) := by
  have row : ActRow c s (act c s) := actRow_act c hlegal
  rintro (hact | hact) <;> rw [hact] at row
  · cases row with
    | finishEmpty hphase => exact hdrain hphase
  · cases row with
    | finishPartial hphase => exact hdrain hphase

/-! The statements on every cycle. -/

/-- A count of CNT_W bits that may rise, as the reference writes it (R155, R156). -/
theorem mod_cntMod_eq_wrapInc {P : Params} {n : Nat} (hn : n < cntMod P) (p : Prop) [Decidable p] :
    (n + if p then 1 else 0) % cntMod P = if p then wrapInc P n else n := by
  split
  · rfl
  · exact Nat.mod_eq_of_lt hn

/-- Where the counters hold CNT_W bits, the composed cycle is the reference's (R156). -/
theorem State.CountersFit.referenceStep_eq {P : Params} {s : State} (hfit : s.CountersFit P)
    (hlegal : s.phase ≠ .reserved) (hrst : s.pins.rst = false) : referenceStep P s = s.afterCycle P := by
  have hphase :
      (if act P.toCodec s = .finishEmpty ∨ act P.toCodec s = .finishPartial then Phase.done
        else if s.phase = .run ∧ s.pins.shutdown = true then .drain else s.phase) =
      if s.stops then .drain
      else if act P.toCodec s = .finishEmpty ∨ act P.toCodec s = .finishPartial then .done
      else s.phase := by
    by_cases hstops : s.stops = true
    · have hrun : s.phase = .run := (s.stops_iff.mp hstops).1
      rw [if_neg (act_ne_finish P.toCodec hlegal (by simp [hrun])), if_pos (s.stops_iff.mp hstops),
        if_pos hstops]
    · rw [if_neg (mt s.stops_iff.mpr hstops), if_neg hstops]
  have houtValid :
      (if s.outValid = true ∧ s.pins.outReady = true then false else s.outValid) =
        (s.outValid && !s.pins.outReady) := by
    cases s.outValid <;> simp
  simp only [referenceStep, hrst, Bool.false_eq_true, if_false, ← s.accepts_iff, ← s.fires_iff, hphase,
    mod_cntMod_eq_wrapInc hfit.inFits, mod_cntMod_eq_wrapInc hfit.noiseFits,
    mod_cntMod_eq_wrapInc hfit.malFits, mod_cntMod_eq_wrapInc hfit.ckFits,
    mod_cntMod_eq_wrapInc hfit.frameFits]
  simp only [s.fires_iff, houtValid, s.afterCycle_eq]

/-- Settles O25: with reset both are the reset registers; without it the reference's fields are those of the
composed cycle (`referenceStep_eq`). -/
theorem stepIsTheReferenceStep : Obligations.StepIsTheReferenceStep := by
  unfold Obligations.StepIsTheReferenceStep
  have hstep (P : Params) (s : State) (hlegal : s.phase ≠ .reserved) (hfit : s.CountersFit P) :
      stepWith P s = .next (referenceStep P s).tick := by
    cases hrst : s.pins.rst with
    | true => rw [stepWith_of_reset hrst, referenceStep, if_pos hrst]
    | false => rw [stepWith_of_no_reset hlegal hrst, hfit.referenceStep_eq hlegal hrst]
  exact ⟨hstep, step_eq_stepWith ▸ hstep defaultParams⟩

/-- Settles O27: what remains of the buffer is the old one without the popped head, and the accept bit says
whether the byte goes behind it. -/
theorem offeredByteIsAcceptedExactlyWhenReady : Obligations.OfferedByteIsAcceptedExactlyWhenReady := by
  unfold Obligations.OfferedByteIsAcceptedExactlyWhenReady
  intro P s hlegal hrst
  refine ⟨_, s.buf.drop (popCount s (act P.toCodec s)), stepWith_of_no_reset hlegal hrst,
    List.drop_suffix _ _, fun hoffer => ?_, fun hoffer => ?_⟩
  · have hacc : s.accepts P = true := (s.accepts_iff P).mpr hoffer
    exact ⟨by simp [s.afterCycle_buf, hacc], by simp [s.afterCycle_stream, hacc],
      (s.afterCycle_inCnt P).trans (if_pos hacc)⟩
  · have hacc : ¬ s.accepts P = true := mt (s.accepts_iff P).mp hoffer
    simp [s.afterCycle_buf, s.afterCycle_stream, s.afterCycle_inCnt, hacc]

/-- The bytes an operation pops, by the table of R154. -/
theorem popCount_eq (s : State) (i : Instr) :
    popCount s i =
      if i = .discard ∨ i = .rejectMalformed ∨ i = .rejectChecksum then 1
      else if i = .emit then 16
      else if i = .finishEmpty ∨ i = .finishPartial then s.buf.length
      else 0 := by
  cases i <;> rfl

/-- Settles O28: the pops come off the head, within what is buffered (`popCount_le`), and a byte is accepted
only below the capacity. -/
theorem popsPrecedeThePush : Obligations.PopsPrecedeThePush := by
  unfold Obligations.PopsPrecedeThePush
  intro P s hlegal hrst a
  refine ⟨_, popCount s a, stepWith_of_no_reset hlegal hrst, s.afterCycle_buf P, popCount_eq s a,
    (actRow_act P.toCodec hlegal).popCount_le, fun hcap => ?_⟩
  rw [State.tick_buf, s.afterCycle_buf, List.length_append, List.length_drop]
  split
  next hacc =>
    have hroom : s.buf.length < P.bufCap.val := ((s.accepts_iff P).mp hacc).2.2
    rw [List.length_singleton]
    omega
  next =>
    rw [List.length_nil]
    omega

/-- Settles O29: one field of `afterCycle_eq` for each counter. -/
theorem exactlyTheOperationsCounterRises : Obligations.ExactlyTheOperationsCounterRises := by
  unfold Obligations.ExactlyTheOperationsCounterRises
  intro P s hlegal hrst up
  exact ⟨_, stepWith_of_no_reset hlegal hrst, s.afterCycle_inCnt P, s.afterCycle_noiseCnt P,
    s.afterCycle_malCnt P, s.afterCycle_ckCnt P, s.afterCycle_frameCnt P⟩

/-- Settles O30: FIRE delivers `out_raw` as it was and clears `out_valid`; EMIT, after it, sets it anew. -/
theorem fireDeliversTheFrameOfTheCyclesStart : Obligations.FireDeliversTheFrameOfTheCyclesStart := by
  unfold Obligations.FireDeliversTheFrameOfTheCyclesStart
  intro P s hlegal hrst
  refine ⟨_, stepWith_of_no_reset hlegal hrst, ?_, ?_, fun hemit => ?_⟩
  · rw [State.tick_outValid, s.afterCycle_outValid]
    cases s.outValid <;> simp
  · simp only [State.tick_taken, s.afterCycle_taken, ← s.fires_iff]
    split <;> simp
  · rw [State.tick_outRaw, s.afterCycle_outRaw, if_neg hemit]

theorem State.inReady_of_ne_run (P : Params) {s : State} (hphase : s.phase ≠ .run) : s.inReady P = false := by
  simp [State.inReady, hphase]

theorem State.accepts_of_ne_run (P : Params) {s : State} (hphase : s.phase ≠ .run) :
    s.accepts P = false := by
  simp [State.accepts, State.inReady_of_ne_run P hphase]

theorem State.stops_of_ne_run {s : State} (hphase : s.phase ≠ .run) : s.stops = false := by
  simp [State.stops, hphase]

/-- Settles O31: SHUTDOWN moves from RUN alone, and the only other change of phase is FINISH, to DONE. -/
theorem shutdownStartsDrainingFromRunOnly : Obligations.ShutdownStartsDrainingFromRunOnly := by
  unfold Obligations.ShutdownStartsDrainingFromRunOnly
  intro P s hlegal hrst
  have hfinish := act_ne_finish P.toCodec hlegal
  refine ⟨_, stepWith_of_no_reset hlegal hrst, fun hrun => ?_, fun hrun => ⟨?_, fun hdone => ?_⟩,
    State.inReady_of_ne_run P, fun hrun => not_or.mp (hfinish (by simp [hrun])), fun hrun hvalid hroom => ?_⟩
  · simp [s.afterCycle_phase, hfinish (by simp [hrun]), State.stops, hrun]
  · rw [State.tick_phase, s.afterCycle_phase, State.stops_of_ne_run hrun, if_neg Bool.false_ne_true]
    split
    · simp
    · exact hrun
  · simp [s.afterCycle_phase, hfinish (by simp [hdone]), State.stops_of_ne_run hrun, hdone]
  · have hacc : s.accepts P = true := (s.accepts_iff P).mpr ⟨hvalid, hrun, hroom⟩
    simp [s.afterCycle_stream, hacc]

end Sys2Proof.Machine
end

section
/-! What a cycle reads (41_framer.md R157 to R159, R170): the inputs and the capacity matter only through the
signals that its rules name. -/

namespace Sys2Proof.Machine

/-- The same registers with other inputs to come. -/
def State.withSchedule (s : State) (ps : List Pins) : State := { s with schedule := ps }

theorem State.pins_of_schedule {s : State} {p : Pins} {ps : List Pins} (hs : s.schedule = p :: ps) :
    s.pins = p := by
  simp [State.pins, hs]

/-- Act reads of the inputs only whether the output is free (R142). -/
theorem act_withSchedule (c : Codec) {s : State} {ps : List Pins} (hlegal : s.phase ≠ .reserved)
    (hfree : (s.withSchedule ps).outputFree = s.outputFree) : act c (s.withSchedule ps) = act c s := by
  have hopsel : (s.withSchedule ps).opsel c = s.opsel c := by
    rw [State.opsel_eq_opselBits, State.opsel_eq_opselBits, hfree]
    rfl
  have hact := (actRow_act c (s := s.withSchedule ps) hlegal).decodeOpsel_eq
  rw [hopsel, (actRow_act c hlegal).decodeOpsel_eq] at hact
  exact (Option.some.inj hact).symm

/-- A step reads of its inputs no more than reset, accept bit, fire bit, output free, shutdown bit, and the
data where a byte is accepted. -/
theorem stepWith_withSchedule {P : Params} {s : State} {ps : List Pins} (htail : ps.tail = s.schedule.tail)
    (hrst : (s.withSchedule ps).pins.rst = s.pins.rst)
    (hacc : (s.withSchedule ps).accepts P = s.accepts P)
    (hdata : s.pins.rst = false → s.accepts P = true → (s.withSchedule ps).pins.inData = s.pins.inData)
    (hfree : (s.withSchedule ps).outputFree = s.outputFree) (hfires : (s.withSchedule ps).fires = s.fires)
    (hstops : (s.withSchedule ps).stops = s.stops) : stepWith P (s.withSchedule ps) = stepWith P s := by
  cases hreset : s.pins.rst with
  | true =>
    rw [stepWith_of_reset hreset, stepWith_of_reset (hrst.trans hreset), State.tick, State.tick,
      State.resetRegisters_schedule, State.resetRegisters_schedule, ← htail]
    rfl
  | false =>
    by_cases hlegal : s.phase = .reserved
    · rw [stepWith_of_reserved P hlegal hreset,
        stepWith_of_reserved P (s := s.withSchedule ps) hlegal (hrst.trans hreset)]
    · have hpush : (if s.accepts P then [(s.withSchedule ps).pins.inData] else []) =
          if s.accepts P then [s.pins.inData] else [] := by
        split
        next h => rw [hdata hreset h]
        next => rfl
      have hvalid : ((s.withSchedule ps).outValid && !(s.withSchedule ps).pins.outReady) =
          (s.outValid && !s.pins.outReady) := by
        have hkept (t : State) : (t.outValid && !t.pins.outReady) = (t.outValid && !t.fires) := by
          unfold State.fires
          cases t.outValid <;> rfl
        rw [hkept, hkept, hfires]
        rfl
      rw [stepWith_of_no_reset hlegal hreset,
        stepWith_of_no_reset (s := s.withSchedule ps) hlegal (hrst.trans hreset), State.tick, State.tick,
        State.afterCycle_schedule, State.afterCycle_schedule, ← htail]
      simp only [State.afterCycle_eq, act_withSchedule P.toCodec hlegal hfree, hacc, hpush, hvalid, hfires,
        hstops]
      rfl

/-- Settles O39: an input that is replaced where its rule does not read it changes none of the signals of
`stepWith_withSchedule`. -/
theorem inputsAreReadOnlyWhereTheirRulesSay : Obligations.InputsAreReadOnlyWhereTheirRulesSay := by
  unfold Obligations.InputsAreReadOnlyWhereTheirRulesSay
  intro P s p ps hs
  have htail (q : Pins) : (q :: ps).tail = s.schedule.tail := by simp [hs]
  obtain rfl : s.pins = p := State.pins_of_schedule hs
  refine ⟨fun b hunread => ?_, fun x hvalid => ?_, fun x hrun => ?_⟩
  · refine stepWith_withSchedule (htail _) rfl rfl (fun hrst hacc => ?_) rfl rfl rfl
    obtain ⟨hoffer, hready⟩ := Bool.and_eq_true_iff.mp hacc
    simp [hrst, hoffer, hready] at hunread
  · refine stepWith_withSchedule (htail _) rfl rfl (fun _ _ => rfl) ?_ ?_ rfl
    · simp [State.outputFree, State.withSchedule, hvalid]
    · simp [State.fires, State.withSchedule, hvalid]
  · have hstops (σ : List Pins) : (s.withSchedule σ).stops = s.stops :=
      (State.stops_of_ne_run (s := s.withSchedule σ) hrun).trans (State.stops_of_ne_run hrun).symm
    exact stepWith_withSchedule (htail _) rfl rfl (fun _ _ => rfl) rfl rfl (hstops _)

/-- Settles O59: the capacity stands in the accept bit alone, as part of `in_ready`; the counters read CNT_W
and Act the codec. -/
theorem capacityIsReadOnlyThroughReady : Obligations.CapacityIsReadOnlyThroughReady := by
  unfold Obligations.CapacityIsReadOnlyThroughReady
  intro P Q s hcodec hwidth hready
  have hacc : s.accepts P = s.accepts Q := by rw [State.accepts, State.accepts, hready]
  have hinc (n : Nat) : wrapInc P n = wrapInc Q n := by rw [wrapInc, wrapInc, cntMod, cntMod, hwidth]
  cases hrst : s.pins.rst with
  | true => rw [stepWith_of_reset hrst, stepWith_of_reset hrst]
  | false =>
    by_cases hlegal : s.phase = .reserved
    · rw [stepWith_of_reserved P hlegal hrst, stepWith_of_reserved Q hlegal hrst]
    · rw [stepWith_of_no_reset hlegal hrst, stepWith_of_no_reset hlegal hrst]
      simp only [State.afterCycle_eq, hcodec, hacc, hinc]

end Sys2Proof.Machine
end

section
/-! The operations of a cycle (41_framer.md R143 to R149, R152, R153): the row that the state of the buffer
selects, and what the cycle then leaves. -/

namespace Sys2Proof.Machine

/-! Windows and residues at the head. -/

theorem exists_window {l : List Byte} (hlen : 16 ≤ l.length) : ∃ w, window? l = some w := by
  rw [← Option.ne_none_iff_exists', ne_eq, window?_eq_none_iff]
  omega

theorem IsResidue.length_lt {S : List Byte} (hS : IsResidue S) : S.length < 16 := by
  obtain rfl | ⟨rest, rfl, hlen⟩ := hS
  · simp
  · simp only [List.length_cons]
    omega

theorem toList_eq_cons (w : Frame) : w.toList = w[0] :: w.toList.tail := by
  have hne : w.toList ≠ [] := by simp
  rw [← List.cons_head_tail hne]
  simp [List.head_eq_getElem]

/-- A valid window starts with the marker (R101). -/
theorem marker_of_validate {c : Codec} {w : Frame} (hok : resultOf (validate c w) = .ok) : w[0] = marker :=
  ((structureOk_iff _ w).mp (resultOf_validate_eq_ok_iff.mp hok).1).1

theorem State.headIsMarker_of_window {s : State} {w : Frame} {rest : List Byte}
    (hbuf : s.buf = w.toList ++ rest) (hmarker : w[0] = marker) : s.headIsMarker = true := by
  rw [s.headIsMarker_iff, hbuf, toList_eq_cons, hmarker]
  exact ⟨_, rfl⟩

/-! Which operation is selected. -/

section
variable {c : Codec} {s : State}

theorem act_of_residue_run (hrun : s.phase = .run) (hresidue : IsResidue s.buf) :
    act c s = .idle ∨ act c s = .wait := by
  have hwin : window? s.buf = none := (window?_eq_none_iff _).mpr hresidue.length_lt
  obtain hempty | ⟨rest, hcons, -⟩ := hresidue
  · exact .inl (ActRow.idle hrun hempty).act_eq
  · exact .inr (ActRow.wait hrun (s.headIsMarker_iff.mpr ⟨rest, hcons⟩) hwin).act_eq

theorem act_of_residue_drain (hdrain : s.phase = .drain) (hresidue : IsResidue s.buf) :
    act c s = .finishEmpty ∨ act c s = .finishPartial := by
  have hwin : window? s.buf = none := (window?_eq_none_iff _).mpr hresidue.length_lt
  obtain hempty | ⟨rest, hcons, -⟩ := hresidue
  · exact .inl (ActRow.finishEmpty hdrain hempty).act_eq
  · exact .inr (ActRow.finishPartial hdrain (s.headIsMarker_iff.mpr ⟨rest, hcons⟩) hwin).act_eq

theorem act_of_noise (hscan : s.Scanning) {b : Byte} {rest : List Byte} (hbuf : s.buf = b :: rest)
    (hb : b ≠ marker) : act c s = .discard :=
  (ActRow.discard hscan (by simp [hbuf]) (State.headIsMarker_eq_false hbuf hb)).act_eq

end

/-! What the cycle leaves, by its operation. -/

section
variable {P : Params} {s : State}

/-- With the output free no frame stays pending unless one is emitted (R84, R150). -/
theorem State.outValid_and_not_outReady_of_free (hfree : s.outValid = false ∨ s.pins.outReady = true) :
    (s.outValid && !s.pins.outReady) = false := by
  rcases hfree with h | h <;> simp [h]

/-- An operation that counts nothing leaves the scan's counters and the output register to FIRE. -/
theorem State.afterCycle_of_no_count
    (hact : act P.toCodec s ∉ [Instr.discard, .rejectMalformed, .rejectChecksum, .emit]) :
    (s.afterCycle P).noiseCnt = s.noiseCnt ∧ (s.afterCycle P).malCnt = s.malCnt ∧
      (s.afterCycle P).ckCnt = s.ckCnt ∧ (s.afterCycle P).frameCnt = s.frameCnt ∧
      (s.afterCycle P).outRaw = s.outRaw ∧
      (s.afterCycle P).outValid = (s.outValid && !s.pins.outReady) := by
  simp only [List.mem_cons, List.not_mem_nil, or_false, not_or] at hact
  obtain ⟨hdiscard, hmalformed, hchecksum, hemit⟩ := hact
  simp [s.afterCycle_noiseCnt, s.afterCycle_malCnt, s.afterCycle_ckCnt, s.afterCycle_frameCnt,
    s.afterCycle_outRaw, s.afterCycle_outValid, hdiscard, hmalformed, hchecksum, hemit]

/-- Only FINISH sets the residue's length (R36, R152). -/
theorem State.afterCycle_residueLen_of_ne_finish
    (hact : ¬ (act P.toCodec s = .finishEmpty ∨ act P.toCodec s = .finishPartial)) :
    (s.afterCycle P).residueLen = s.residueLen := by
  rw [s.afterCycle_residueLen, if_neg hact]

end

/-- Settles O32: with a residue in DRAIN the operation is FINISH, which counts nothing and, with fewer than
16 bytes, keeps their number whole. -/
theorem finishEndsTheDrain : Obligations.FinishEndsTheDrain := by
  unfold Obligations.FinishEndsTheDrain
  intro P s hdrain hrst hresidue
  have hrun : s.phase ≠ .run := by simp [hdrain]
  have hact : act P.toCodec s = .finishEmpty ∨ act P.toCodec s = .finishPartial :=
    act_of_residue_drain hdrain hresidue
  have hacc : s.accepts P = false := State.accepts_of_ne_run P hrun
  have hphase : (s.afterCycle P).phase = .done := by
    simp [s.afterCycle_phase, hact, State.stops_of_ne_run hrun]
  have hpop : popCount s (act P.toCodec s) = s.buf.length := by
    rcases hact with hact | hact <;> rw [hact] <;> rfl
  have hlen : (s.afterCycle P).residueLen.toNat = s.buf.length := by
    rw [s.afterCycle_residueLen, if_pos hact]
    exact Nat.mod_eq_of_lt (IsResidue.length_lt hresidue)
  obtain ⟨hnoise, hmal, hck, hframe, hraw, hvalid⟩ :=
    State.afterCycle_of_no_count (P := P) (s := s) (by rcases hact with hact | hact <;> simp [hact])
  refine ⟨_, stepWith_of_no_reset (by simp [hdrain]) hrst, hphase, ?_, hlen, ?_, hnoise, hmal, hck, hframe,
    hraw, ?_, fun hfree => ?_, fun hpending hbusy => ?_⟩
  · simp [s.afterCycle_buf, hpop, hacc]
  · simp [s.afterCycle_inCnt, hacc]
  · simp [s.afterCycle_stream, hacc]
  · have hend : (s.afterCycle P).outValid = false :=
      hvalid.trans (State.outValid_and_not_outReady_of_free hfree)
    simp [State.doneFlag, hphase, hend]
  · have hend : (s.afterCycle P).outValid = true := by simp [hvalid, hpending, hbusy]
    simp [State.doneFlag, hend]

/-- Settles O33: in DONE the operation is NONE, nothing is accepted, and FIRE alone is left. -/
theorem doneLastsUntilReset : Obligations.DoneLastsUntilReset := by
  unfold Obligations.DoneLastsUntilReset
  intro P s hdone hrst
  have hrun : s.phase ≠ .run := by simp [hdone]
  have hact : act P.toCodec s = .none := (ActRow.none hdone).act_eq
  have hacc : s.accepts P = false := State.accepts_of_ne_run P hrun
  obtain ⟨hnoise, hmal, hck, hframe, hraw, hvalid⟩ :=
    State.afterCycle_of_no_count (P := P) (s := s) (by simp [hact])
  refine ⟨State.inReady_of_ne_run P hrun, _, stepWith_of_no_reset (by simp [hdone]) hrst, ?_, ?_, ?_, ?_,
    hnoise, hmal, hck, hframe, hraw, ?_, hvalid⟩
  · simp [s.afterCycle_phase, hact, State.stops_of_ne_run hrun, hdone]
  · simp [s.afterCycle_buf, hact, popCount, hacc]
  · exact State.afterCycle_residueLen_of_ne_finish (by simp [hact])
  · simp [s.afterCycle_inCnt, hacc]
  · simp [s.afterCycle_stream, hacc]

/-- Settles O34: with a residue in RUN the operation is IDLE or WAIT, which pops and counts nothing. -/
theorem partialWindowWaitsInRun : Obligations.PartialWindowWaitsInRun := by
  unfold Obligations.PartialWindowWaitsInRun
  intro P s hrun hrst hresidue
  have hact : act P.toCodec s = .idle ∨ act P.toCodec s = .wait := act_of_residue_run hrun hresidue
  have hpop : popCount s (act P.toCodec s) = 0 := by
    rcases hact with hact | hact <;> rw [hact] <;> rfl
  obtain ⟨hnoise, hmal, hck, hframe, hraw, hvalid⟩ :=
    State.afterCycle_of_no_count (P := P) (s := s) (by rcases hact with hact | hact <;> simp [hact])
  refine ⟨_, stepWith_of_no_reset (by simp [hrun]) hrst, ?_, hnoise, hmal, hck, hframe, hraw, ?_, hvalid⟩
  · simp [s.afterCycle_buf, hpop]
  · exact State.afterCycle_residueLen_of_ne_finish (act_ne_finish P.toCodec (by simp [hrun]) (by simp [hrun]))

/-- Settles O35: a head other than the marker is DISCARD's row. -/
theorem noiseByteIsDiscardedAndCounted : Obligations.NoiseByteIsDiscardedAndCounted := by
  unfold Obligations.NoiseByteIsDiscardedAndCounted
  intro P s b rest hscan hrst hbuf hb
  have hact : act P.toCodec s = .discard := act_of_noise hscan hbuf hb
  refine ⟨_, stepWith_of_no_reset (State.Scanning.legal hscan) hrst, ?_, ?_, ?_, ?_, ?_, ?_, ?_, ?_⟩
  · simp [s.afterCycle_buf, hact, popCount, hbuf]
  · exact (s.afterCycle_noiseCnt P).trans (if_pos hact)
  · simp [s.afterCycle_malCnt, hact]
  · simp [s.afterCycle_ckCnt, hact]
  · simp [s.afterCycle_frameCnt, hact]
  · simp [s.afterCycle_outRaw, hact]
  · simp [s.afterCycle_residueLen, hact]
  · simp [s.afterCycle_outValid, hact]

/-- Settles O36: a full window at a marker with the output busy is HOLD's row, and no FIRE comes. -/
theorem fullWindowHoldsWhileOutputBusy : Obligations.FullWindowHoldsWhileOutputBusy := by
  unfold Obligations.FullWindowHoldsWhileOutputBusy
  rintro P s hscan hrst ⟨rest, hbuf, hlen⟩ hpending hbusy
  obtain ⟨w, hwin⟩ : ∃ w, window? s.buf = some w :=
    exists_window (by rw [hbuf, List.length_cons]; omega)
  have hact : act P.toCodec s = .hold :=
    (ActRow.hold w hscan (s.headIsMarker_iff.mpr ⟨rest, hbuf⟩) hwin
      (s.outputFree_eq_false_iff.mpr ⟨hpending, hbusy⟩)).act_eq
  obtain ⟨hnoise, hmal, hck, hframe, hraw, hvalid⟩ :=
    State.afterCycle_of_no_count (P := P) (s := s) (by simp [hact])
  refine ⟨_, stepWith_of_no_reset (State.Scanning.legal hscan) hrst, ?_, hnoise, hmal, hck, hframe, hraw, ?_,
    ?_, ?_, fun hfull => ?_⟩
  · simp [s.afterCycle_buf, hact, popCount]
  · simpa [hpending, hbusy] using hvalid
  · simp [s.afterCycle_taken, State.fires, hbusy]
  · exact State.afterCycle_residueLen_of_ne_finish (by simp [hact])
  · simp [State.inReady, State.bufCnt, hfull]

/-- Settles O37: a valid window starts with the marker, so with the output free it is EMIT's row; a frame
that was pending fires in this cycle. -/
theorem validWindowIsEmitted : Obligations.ValidWindowIsEmitted := by
  unfold Obligations.ValidWindowIsEmitted
  intro P s w rest hscan hrst hbuf hfree hok
  have hwin : window? s.buf = some w := (window?_eq_some_iff _ _).mpr ⟨rest, hbuf⟩
  have hact : act P.toCodec s = .emit :=
    (ActRow.emit w hscan (State.headIsMarker_of_window hbuf (marker_of_validate hok)) hwin
      (s.outputFree_iff.mpr hfree) hok).act_eq
  refine ⟨_, stepWith_of_no_reset (State.Scanning.legal hscan) hrst, ?_, ?_, ?_, ?_, ?_, ?_, ?_, ?_, ?_⟩
  · simp [s.afterCycle_outRaw, hact, hwin]
  · simp [s.afterCycle_outValid, hact]
  · simp [s.afterCycle_buf, hact, popCount, hbuf]
  · exact (s.afterCycle_frameCnt P).trans (if_pos hact)
  · simp [s.afterCycle_noiseCnt, hact]
  · simp [s.afterCycle_malCnt, hact]
  · simp [s.afterCycle_ckCnt, hact]
  · simp [s.afterCycle_residueLen, hact]
  · have hfires : s.fires = s.outValid := by
      rcases hfree with hvalid | hready
      · simp [State.fires, hvalid]
      · simp [State.fires, hready]
    rw [State.tick_taken, s.afterCycle_taken, hfires]

/-- A window at a marker that is not OK is rejected for one of two causes (R148, R149). -/
theorem act_of_rejection {c : Codec} {s : State} {w : Frame} (hscan : s.Scanning)
    (hhead : s.headIsMarker = true) (hwin : window? s.buf = some w) (hfree : s.outputFree = true)
    (hres : resultOf (validate c w) ≠ .ok) : act c s = .rejectMalformed ∨ act c s = .rejectChecksum := by
  cases hcause : resultOf (validate c w) with
  | ok => exact absurd hcause hres
  | malformed => exact .inl (ActRow.rejectMalformed w hscan hhead hwin hfree hcause).act_eq
  | checksumMismatch => exact .inr (ActRow.rejectChecksum w hscan hhead hwin hfree hcause).act_eq

/-- What both rejections leave (R197): the marker popped, the other registers but for the counter of the
cause. -/
theorem State.afterCycle_of_rejection {P : Params} {s : State}
    (hact : act P.toCodec s = .rejectMalformed ∨ act P.toCodec s = .rejectChecksum) :
    (s.afterCycle P).buf = s.buf.drop 1 ++ (if s.accepts P then [s.pins.inData] else []) ∧
      (s.afterCycle P).noiseCnt = s.noiseCnt ∧ (s.afterCycle P).frameCnt = s.frameCnt ∧
      (s.afterCycle P).outRaw = s.outRaw ∧ (s.afterCycle P).residueLen = s.residueLen ∧
      (s.afterCycle P).outValid = (s.outValid && !s.pins.outReady) := by
  rcases hact with hact | hact <;>
    simp [s.afterCycle_buf, s.afterCycle_noiseCnt, s.afterCycle_frameCnt, s.afterCycle_outRaw,
      s.afterCycle_residueLen, s.afterCycle_outValid, hact, popCount]

/-- Settles O38: both causes pop one byte, and each has its own row and counter. -/
theorem failedWindowLosesOneByte : Obligations.FailedWindowLosesOneByte := by
  unfold Obligations.FailedWindowLosesOneByte
  intro P s w rest hscan hrst hbuf hmarker hfree hres up
  have hwin : window? s.buf = some w := (window?_eq_some_iff _ _).mpr ⟨rest, hbuf⟩
  have hhead : s.headIsMarker = true := State.headIsMarker_of_window hbuf hmarker
  have hout : s.outputFree = true := s.outputFree_iff.mpr hfree
  have htail : s.buf.drop 1 = w.toList.tail ++ rest := by rw [hbuf, toList_eq_cons]; rfl
  obtain ⟨hpop, hnoise, hframe, hraw, hlen, hvalid⟩ :=
    State.afterCycle_of_rejection (act_of_rejection hscan hhead hwin hout hres)
  refine ⟨_, stepWith_of_no_reset (State.Scanning.legal hscan) hrst, htail ▸ hpop, fun hcause => ?_,
    fun hcause => ?_, hnoise, hframe, hraw, hlen, hvalid.trans (State.outValid_and_not_outReady_of_free hfree)⟩
  · have hact : act P.toCodec s = .rejectMalformed :=
      (ActRow.rejectMalformed w hscan hhead hwin hout hcause).act_eq
    exact ⟨(s.afterCycle_malCnt P).trans (if_pos hact),
      (s.afterCycle_ckCnt P).trans (if_neg (by simp [hact]))⟩
  · have hact : act P.toCodec s = .rejectChecksum :=
      (ActRow.rejectChecksum w hscan hhead hwin hout hcause).act_eq
    exact ⟨(s.afterCycle_ckCnt P).trans (if_pos hact),
      (s.afterCycle_malCnt P).trans (if_neg (by simp [hact]))⟩

end Sys2Proof.Machine
end

section
/-! The laws of every safe state (41_framer.md R161 to R164): what a state that follows the scan says of the
scan of its stream. -/

namespace Sys2Proof.Machine

/-- A scan only adds frames to those found before. -/
theorem ScanRound.frames_prefix {c : Codec} {a a' : ScanAcc} {S T : List Byte}
    (round : ScanRound c a S a' T) : a.frames <+: a'.frames := by
  cases round with
  | noise | malformed | checksumMismatch => exact List.prefix_rfl
  | frame => exact List.prefix_append _ _

theorem frames_prefix_scanFrom (c : Codec) (a : ScanAcc) (S : List Byte) :
    a.frames <+: (scanFrom c a S).frames := by
  obtain ⟨a', R, hscan, -, hprefix⟩ := scanFrom_stops (c := c) (fun a' _ => a.frames <+: a'.frames)
    (fun round hprefix => hprefix.trans round.frames_prefix) a S List.prefix_rfl
  rw [hscan]
  exact hprefix

section
variable {P : Params} {s : State} {a : ScanAcc}

/-- Before FINISH the scan of the stream is the scan of the buffer, continued. -/
theorem State.Tracks.scan_eq (h : s.Tracks P a) (hdone : s.phase ≠ .done) :
    scan P.toCodec s.stream = scanFrom P.toCodec a s.buf := by
  simpa using h.scanning hdone []

theorem State.Tracks.frames_prefix (h : s.Tracks P a) : a.frames <+: (scan P.toCodec s.stream).frames := by
  by_cases hdone : s.phase = .done
  · obtain ⟨residue, hscan, -⟩ := h.finished hdone
    rw [hscan]
    exact List.prefix_rfl
  · rw [h.scan_eq hdone]
    exact frames_prefix_scanFrom ..

theorem State.doneFlag_iff (s : State) : s.doneFlag = true ↔ s.phase = .done ∧ s.outValid = false := by
  simp [State.doneFlag]

/-- At IDLE and WAIT the buffer is what a scan leaves (R143, R145). -/
theorem isResidue_of_act {c : Codec} (hlegal : s.phase ≠ .reserved)
    (hact : act c s = .idle ∨ act c s = .wait) : IsResidue s.buf := by
  have row : ActRow c s (act c s) := actRow_act c hlegal
  rcases hact with hact | hact <;> rw [hact] at row
  · cases row with
    | idle hphase hempty => exact .inl hempty
  · cases row with
    | wait hphase hhead hwin => exact State.isResidue_of_no_window hhead hwin

end

/-- Settles O47: what was taken and is pending is what the scan has found so far. -/
theorem framesTakenAreAPrefixOfTheScan : Obligations.FramesTakenAreAPrefixOfTheScan := by
  unfold Obligations.FramesTakenAreAPrefixOfTheScan
  rintro P s ⟨-, a, h⟩
  have hprefix := h.frames_prefix
  rwa [h.frames] at hprefix

/-- Settles O48: in DONE the scan has stopped; at IDLE and WAIT it stops at once on the buffer. -/
theorem completionLaw : Obligations.CompletionLaw := by
  unfold Obligations.CompletionLaw
  rintro P s ⟨hinv, a, h⟩ r
  refine ⟨fun hflag => ?_, fun hrun hact => ?_⟩
  · obtain ⟨hdone, hvalid⟩ := s.doneFlag_iff.mp hflag
    obtain ⟨residue, hscan, hlen⟩ := h.finished hdone
    have hr : r = a.stop residue := hscan
    have htaken : a.frames = s.taken := by simp [h.frames, State.pending, hvalid]
    rw [hr]
    exact ⟨htaken.symm, h.noiseCount, h.malCount, h.ckCount, h.frameCount, hlen.symm⟩
  · have hresidue : IsResidue s.buf := isResidue_of_act hinv.phaseLegal hact
    have hr : r = a.stop s.buf := (h.scan_eq (by simp [hrun])).trans (hresidue.scanFrom_eq _ _)
    rw [hr]
    exact ⟨rfl, h.frames.symm⟩

/-- Settles O49: by the completion law both results are those of the scan of the one stream. -/
theorem resultDependsOnlyOnTheStream : Obligations.ResultDependsOnlyOnTheStream := by
  unfold Obligations.ResultDependsOnlyOnTheStream
  intro P Q s t hs ht hsdone htdone hstream hcodec hwidth
  obtain ⟨hframes, hnoise, hmal, hck, hframe, hlen⟩ := (completionLaw P s hs).1 hsdone
  obtain ⟨hframes', hnoise', hmal', hck', hframe', hlen'⟩ := (completionLaw Q t ht).1 htdone
  obtain ⟨-, a, h⟩ := hs
  obtain ⟨-, a', h'⟩ := ht
  rw [← hstream, ← hcodec] at hframes' hnoise' hmal' hck' hframe' hlen'
  rw [← hwidth] at hnoise' hmal' hck' hframe'
  have hin : s.inCnt = t.inCnt := by rw [h.inCount, h'.inCount, hstream, cntMod, cntMod, hwidth]
  exact ⟨hframes.trans hframes'.symm, hin, hnoise.trans hnoise'.symm, hmal.trans hmal'.symm,
    hck.trans hck'.symm, hframe.trans hframe'.symm, BitVec.eq_of_toNat_eq (hlen.trans hlen'.symm)⟩

/-- The head position is a difference that needs no wrap (R32). -/
theorem State.headPos_eq_of_add {P : Params} {s : State} {n : Nat} (hin : s.inCnt = n + s.bufCnt)
    (hlt : s.inCnt < cntMod P) : s.headPos P = n := by
  have hdiff : (s.inCnt : Int) - s.bufCnt = n := by omega
  rw [State.headPos, hdiff, Int.emod_eq_of_lt (by omega) (by omega), Int.toNat_natCast]

/-- Settles O50: no counter has wrapped (`conserves_exactly`), and before FINISH there is no residue. -/
theorem conservationOfBytes : Obligations.ConservationOfBytes := by
  unfold Obligations.ConservationOfBytes
  rintro P s ⟨hinv, a, h⟩ hlen
  have hcons := h.conserves_exactly hlen
  refine ⟨hcons, fun hdone => State.headPos_eq_of_add ?_ hinv.countersFit.inFits⟩
  have hzero : s.residueLen.toNat = 0 := by simp [hinv.residueOnce hdone]
  omega

end Sys2Proof.Machine
end

section
/-! Recovery (41_framer.md R166 to R168): no valid window overlaps the head of a frame whose command byte is
not HEX, so the scan comes to that frame whatever stands before it. -/

namespace Sys2Proof.Machine

/-- No window that lies within these bytes validates (R167). -/
def NoFrameIn (c : Codec) (N : List Byte) : Prop :=
  ∀ (j : Nat) (w : Frame), window? (N.drop j) = some w → resultOf (validate c w) ≠ .ok

theorem NoFrameIn.suffix {c : Codec} {N T : List Byte} (hN : NoFrameIn c N) (hT : T <:+ N) :
    NoFrameIn c T := by
  rw [List.suffix_iff_eq_drop.mp hT]
  intro j w hwin
  rw [List.drop_drop] at hwin
  exact hN _ w hwin

/-- Only the offsets of the marker and of the command byte can hold a marker (R101 to R106). -/
theorem classOk_marker (hc : HexCase) : ∀ k : Fin 16,
    classOk hc k marker = true → k.val = 0 ∨ k.val = 5 := by
  cases hc <;> decide

theorem isHex_cmdW (hc : HexCase) : isHex hc cmdW = false := by
  cases hc <;> decide

theorem getElem?_of_window {l : List Byte} {w : Frame} (hwin : window? l = some w) {k : Nat} (hk : k < 16) :
    l[k]? = some w[k] := by
  obtain ⟨rest, rfl⟩ := (window?_eq_some_iff _ _).mp hwin
  have hlen : k < w.toList.length := by simpa using hk
  rw [List.getElem?_append_left hlen, List.getElem?_eq_getElem hlen, Vector.getElem_toList]

section
variable {c : Codec} {f : Frame} (hf : resultOf (validate c f) = .ok) (hcmd : isHex c.hexCase f[5] = false)
include hf hcmd

/-- A window that begins before a frame and ends in it does not validate: the frame's marker would have to
be its command byte, and then the frame's command byte one of its HEX digits (R166). -/
theorem validate_overlap_ne_ok {N Q : List Byte} (hne : N ≠ []) (hshort : N.length < 16) {w : Frame}
    (hwin : window? (N ++ f.toList ++ Q) = some w) : resultOf (validate c w) ≠ .ok := by
  intro hok
  have hclass := (structureOk_iff_forall_classOk _ w).mp (resultOf_validate_eq_ok_iff.mp hok).1
  have hbyte (j : Nat) (hj : N.length + j < 16) : w[N.length + j] = f[j] := by
    have hw := getElem?_of_window hwin hj
    rw [List.append_assoc, List.getElem?_append_right (Nat.le_add_right _ _), Nat.add_sub_cancel_left,
      getElem?_of_window (window?_append f Q) (by omega)] at hw
    exact (Option.some.inj hw).symm
  have hmarker : w[N.length] = marker := (hbyte 0 hshort).trans (marker_of_validate hf)
  have hpos : N.length ≠ 0 := by simpa using hne
  rcases classOk_marker c.hexCase ⟨N.length, hshort⟩ (hmarker ▸ hclass ⟨N.length, hshort⟩) with hzero | hfive
  · exact hpos hzero
  · have hfive : N.length = 5 := hfive
    have hten : w[10] = f[5] := by simpa [hfive] using hbyte 5 (by omega)
    have hhex : classOk c.hexCase 10 w[10] = true := hclass 10
    simp [hten, classOk, hcmd] at hhex

/-- A round before the frame stays before it, and finds only what lies there. -/
theorem ScanRound.before_frame {a a' : ScanAcc} {N Q T : List Byte}
    (round : ScanRound c a (N ++ f.toList ++ Q) a' T) (hne : N ≠ []) :
    ∃ N', T = N' ++ f.toList ++ Q ∧ N' <:+ N ∧ (NoFrameIn c N → a'.frames = a.frames) := by
  obtain ⟨b, rest, rfl⟩ := List.exists_cons_of_ne_nil hne
  generalize hS : b :: rest ++ f.toList ++ Q = S at round
  have hrest {b' : Byte} {rest' : List Byte} (h : b :: rest ++ f.toList ++ Q = b' :: rest') :
      rest' = rest ++ f.toList ++ Q := (List.cons.inj h).2.symm
  cases round with
  | noise | malformed | checksumMismatch => exact ⟨rest, hrest hS, List.suffix_cons _ _, fun _ => rfl⟩
  | frame hwin hres =>
    rw [← hS] at hwin ⊢
    have hlen : 16 ≤ (b :: rest).length := by
      by_contra hshort
      exact validate_overlap_ne_ok hf hcmd hne (Nat.lt_of_not_le hshort) hwin hres
    refine ⟨(b :: rest).drop 16, ?_, List.drop_suffix _ _, fun hno => ?_⟩
    · rw [List.append_assoc, List.drop_append_of_le_length hlen, List.append_assoc]
    · obtain ⟨w, hw⟩ := exists_window hlen
      rw [List.append_assoc, window?_append_of_window hw, Option.some.injEq] at hwin
      exact absurd (hwin ▸ hres) (hno 0 w hw)

/-- The scan comes to the frame with exactly the bytes before it consumed. -/
theorem scanFrom_reaches_frame (a : ScanAcc) (N Q : List Byte) :
    ∃ a', scanFrom c a (N ++ f.toList ++ Q) = scanFrom c a' (f.toList ++ Q) ∧
      a'.consumed = a.consumed + N.length ∧ a.frames <+: a'.frames ∧
      (NoFrameIn c N → a'.frames = a.frames) := by
  induction hn : N.length using Nat.strong_induction_on generalizing a N with
  | _ n ih =>
    by_cases hne : N = []
    · subst hne hn
      exact ⟨a, rfl, rfl, List.prefix_rfl, fun _ => rfl⟩
    rcases isResidue_or_round c a (N ++ f.toList ++ Q) with hresidue | ⟨a₁, T, round⟩
    · have hlong := hresidue.length_lt
      simp only [List.length_append, Vector.length_toList] at hlong
      omega
    · obtain ⟨N', rfl, hsuffix, hnone⟩ := round.before_frame hf hcmd hne
      have hlt := round.length_lt
      have hconsumed := round.consumed_eq
      simp only [List.length_append, Vector.length_toList] at hlt hconsumed
      obtain ⟨a', hscan, hcount, hprefix, hnone'⟩ := ih N'.length (by omega) a₁ N' rfl
      exact ⟨a', round.scanFrom_eq.trans hscan, by omega, round.frames_prefix.trans hprefix,
        fun hno => (hnone' (hno.suffix hsuffix)).trans (hnone hno)⟩

end

/-- A valid frame at the head is found at once (R160). -/
theorem scanFrom_frame {c : Codec} {f : Frame} (hf : resultOf (validate c f) = .ok) (a : ScanAcc)
    (Q : List Byte) :
    scanFrom c a (f.toList ++ Q) = scanFrom c { a with frames := a.frames ++ [f] } Q := by
  have hcons : f.toList ++ Q = marker :: (f.toList.tail ++ Q) := by
    rw [← List.cons_append, ← marker_of_validate hf, ← toList_eq_cons]
  have hround : ScanRound c a (marker :: (f.toList.tail ++ Q)) { a with frames := a.frames ++ [f] }
      ((marker :: (f.toList.tail ++ Q)).drop 16) := .frame (by rw [← hcons, window?_append]) hf
  rw [hcons, hround.scanFrom_eq, ← hcons, List.drop_left' (by simp)]

/-- Settles O52: the scan comes to the frame (`scanFrom_reaches_frame`), finds it, and goes on behind it. -/
theorem recoveryLaw : Obligations.RecoveryLaw := by
  unfold Obligations.RecoveryLaw
  intro c f P Q hf hcmd
  obtain ⟨a, hscan, hconsumed, -, -⟩ := scanFrom_reaches_frame hf hcmd .empty P Q
  have hfound : scan c (P ++ f.toList ++ Q) = scanFrom c { a with frames := a.frames ++ [f] } Q :=
    hscan.trans (scanFrom_frame hf a Q)
  refine ⟨?_, a, hconsumed.trans (Nat.zero_add _), hfound⟩
  rw [hfound]
  exact (frames_prefix_scanFrom c { a with frames := a.frames ++ [f] } Q).subset (by simp)

/-- The scan of bytes in which no window validates finds nothing. -/
theorem frames_scanFrom_of_noFrameIn {c : Codec} {N : List Byte} (hno : NoFrameIn c N) (a : ScanAcc) :
    (scanFrom c a N).frames = a.frames := by
  have hround {a₁ a₂ : ScanAcc} {S T : List Byte} (round : ScanRound c a₁ S a₂ T)
      (h : S <:+ N ∧ a₁.frames = a.frames) : T <:+ N ∧ a₂.frames = a.frames := by
    obtain ⟨hsuffix, hframes⟩ := h
    refine ⟨round.suffix.trans hsuffix, ?_⟩
    cases round with
    | noise | malformed | checksumMismatch => exact hframes
    | frame hwin hres => exact absurd hres (hno.suffix hsuffix 0 _ hwin)
  obtain ⟨a', R, hscan, -, -, hframes⟩ :=
    scanFrom_stops (c := c) (fun a' S => S <:+ N ∧ a'.frames = a.frames) hround a N ⟨List.suffix_rfl, rfl⟩
  rw [hscan]
  exact hframes

/-- R167 for a scan that goes on from what it has found before. -/
theorem scanFrom_resync {c : Codec} {parts : List (List Byte × Frame)} (Q : List Byte)
    (hparts : ∀ x ∈ parts, resultOf (validate c x.2) = .ok ∧ x.2[5] = cmdW) (a : ScanAcc) :
    let found := (scanFrom c a ((parts.flatMap fun x => x.1 ++ x.2.toList) ++ Q)).frames
    (a.frames ++ parts.map Prod.snd).Sublist found ∧
      ((∀ noise ∈ Q :: parts.map Prod.fst, NoFrameIn c noise) → found = a.frames ++ parts.map Prod.snd) := by
  induction parts generalizing a with
  | nil =>
    simp only [List.flatMap_nil, List.nil_append, List.map_nil, List.append_nil, List.mem_singleton,
      forall_eq]
    exact ⟨(frames_prefix_scanFrom c a Q).sublist, fun hno => frames_scanFrom_of_noFrameIn hno a⟩
  | cons x parts ih =>
    obtain ⟨⟨hx, hcmd⟩, hparts⟩ := List.forall_mem_cons.mp hparts
    have hhex : isHex c.hexCase x.2[5] = false := by rw [hcmd, isHex_cmdW]
    obtain ⟨a', hscan, -, hprefix, hnone⟩ := scanFrom_reaches_frame hx hhex a x.1
      ((parts.flatMap fun x => x.1 ++ x.2.toList) ++ Q)
    obtain ⟨hsub, hall⟩ := ih hparts { a' with frames := a'.frames ++ [x.2] }
    simp only [List.flatMap_cons, List.map_cons, List.append_assoc] at hscan hsub hall ⊢
    rw [hscan, scanFrom_frame hx]
    refine ⟨(hprefix.sublist.append_right _).trans hsub, fun hno => ?_⟩
    obtain ⟨hQ, hnoise, hrest⟩ : NoFrameIn c Q ∧ NoFrameIn c x.1 ∧
        ∀ noise ∈ parts.map Prod.fst, NoFrameIn c noise := by
      simpa only [List.forall_mem_cons] using hno
    rw [hall (List.forall_mem_cons.mpr ⟨hQ, hrest⟩), hnone hnoise]
    rfl

/-- Settles O53: `scanFrom_resync` from the start of a stream. -/
theorem resyncBound : Obligations.ResyncBound := by
  unfold Obligations.ResyncBound
  exact fun c parts Q hparts => scanFrom_resync Q hparts .empty

/-- A frame with one changed byte is not OK (R125). -/
theorem validate_mutate_ne_ok {c : Codec} {f : Frame} {k : Fin 16} {b : Byte}
    (hfn : SingleByteSensitive c.checksumFn) (hf : resultOf (validate c f) = .ok) (hb : b ≠ f[k]) :
    resultOf (validate c (mutate f k b)) ≠ .ok := by
  obtain ⟨hmarker, hbody, hchecksum⟩ := changedByteIsRejected c f k b hf hb
  rcases Nat.eq_zero_or_pos k.val with hk | hlow
  · simp [hmarker hk]
  · rcases Nat.lt_or_ge k.val 14 with hhigh | hhigh
    · rw [hbody hlow (by omega) hfn]
      generalize (if k.val = 5 then true else if k.val ≤ 9 then isDec b else isHex c.hexCase b) = inClass
      cases inClass <;> decide
    · exact hchecksum hhigh

/-- The one window that lies within 16 bytes is they themselves. -/
theorem noFrameIn_toList {c : Codec} {w : Frame} (hw : resultOf (validate c w) ≠ .ok) :
    NoFrameIn c w.toList := by
  intro j v hwin
  have hlen := (List.getElem?_eq_some_iff.mp (getElem?_of_window hwin (k := 15) (by omega))).1
  simp only [List.length_drop, Vector.length_toList] at hlen
  obtain rfl : j = 0 := by omega
  obtain rfl : w = v := by
    simpa using ((List.append_nil w.toList ▸ window?_append w []).symm.trans hwin : some w = some v)
  exact hw

/-- Settles O54: the changed frame is noise in which no window validates, so the frame behind it is all that
the scan finds (`resyncBound`). -/
theorem corruptedFrameDoesNotLoseTheNext : Obligations.CorruptedFrameDoesNotLoseTheNext := by
  unfold Obligations.CorruptedFrameDoesNotLoseTheNext
  intro c f g k b hfn hf hg hcmd hb
  have hnoise : ∀ noise ∈ [[], (mutate f k b).toList], NoFrameIn c noise := by
    simp only [List.forall_mem_cons, List.not_mem_nil, false_implies, implies_true, and_true]
    exact ⟨fun j w hwin => by simp [window?] at hwin, noFrameIn_toList (validate_mutate_ne_ok hfn hf hb)⟩
  simpa using (resyncBound c [((mutate f k b).toList, g)] [] (by simp [hg, hcmd])).2 hnoise

end Sys2Proof.Machine
end

section
/-! Draining (41_framer.md R165, 70_reset_and_hazards.md R234): with the consumer ready every cycle of DRAIN
ends it or takes bytes from the buffer. -/

namespace Sys2Proof.Machine

variable {P : Params} {s : State}

/-- With the output free, an operation of DRAIN that is not FINISH pops. -/
theorem ActRow.finish_or_pops {c : Codec} {i : Instr} (row : ActRow c s i) (hdrain : s.phase = .drain)
    (hfree : s.outputFree = true) : (i = .finishEmpty ∨ i = .finishPartial) ∨ 1 ≤ popCount s i := by
  cases row with
  | none hphase | idle hphase | wait hphase => simp [hdrain] at hphase
  | hold w hscan hhead hwin hbusy => simp [hfree] at hbusy
  | finishEmpty | finishPartial => simp
  | discard | emit | rejectMalformed | rejectChecksum => simp [popCount]

theorem afterCycle_drains (P : Params) (hdrain : s.phase = .drain) (hfree : s.outputFree = true) :
    (s.afterCycle P).phase = .done ∨
      (s.afterCycle P).phase = .drain ∧ (s.afterCycle P).bufCnt < s.bufCnt := by
  have hlegal : s.phase ≠ .reserved := by simp [hdrain]
  have hrun : s.phase ≠ .run := by simp [hdrain]
  have hphase := s.afterCycle_phase P
  rw [State.stops_of_ne_run hrun, if_neg Bool.false_ne_true] at hphase
  by_cases hfinish : act P.toCodec s = .finishEmpty ∨ act P.toCodec s = .finishPartial
  · exact .inl (hphase.trans (if_pos hfinish))
  · have hpop := ((actRow_act P.toCodec hlegal).finish_or_pops hdrain hfree).resolve_left hfinish
    have hcnt := State.afterCycle_bufCnt P hlegal
    rw [State.accepts_of_ne_run P hrun, if_neg Bool.false_ne_true] at hcnt
    exact .inr ⟨(hphase.trans (if_neg hfinish)).trans hdrain, by omega⟩

theorem afterCycle_phase_of_done (P : Params) (hdone : s.phase = .done) : (s.afterCycle P).phase = .done := by
  rw [s.afterCycle_phase, State.stops_of_ne_run (by simp [hdone]),
    if_neg (act_ne_finish P.toCodec (by simp [hdone]) (by simp [hdone])), if_neg Bool.false_ne_true, hdone]

/-- What is left of a drain: over, or a scan that the coming cycles are enough for. -/
def State.DrainsWithin (s : State) (n : Nat) : Prop :=
  s.phase = .done ∨ s.phase = .drain ∧ s.bufCnt < n

theorem State.DrainsWithin.afterCycle {n : Nat} (h : s.DrainsWithin (n + 1)) (hfree : s.outputFree = true) :
    (s.afterCycle P).DrainsWithin n := by
  rcases h with hdone | ⟨hdrain, hcnt⟩
  · exact .inl (afterCycle_phase_of_done P hdone)
  · exact (afterCycle_drains P hdrain hfree).imp_right fun ⟨hphase, hlt⟩ => ⟨hphase, by omega⟩

/-- Without reset and with the consumer ready, a drain is over after as many cycles as it needs. -/
theorem exists_run_done {ps rest : List Pins} (hs : s.schedule = ps ++ rest)
    (hpins : ∀ q ∈ ps, q.rst = false ∧ q.outReady = true) (h : s.DrainsWithin ps.length) :
    ∃ t : State, Host.Core.run (coreWith P) ps.length s = .next t ∧ t.phase = .done := by
  induction ps generalizing s with
  | nil =>
    obtain hdone | ⟨-, hcnt⟩ := h
    · exact ⟨s, rfl, hdone⟩
    · exact absurd hcnt (Nat.not_lt_zero _)
  | cons q ps ih =>
    obtain ⟨⟨hrst, hready⟩, hrest⟩ := List.forall_mem_cons.mp hpins
    obtain rfl : s.pins = q := State.pins_of_schedule hs
    have hlegal : s.phase ≠ .reserved := by
      rcases h with hphase | ⟨hphase, -⟩ <;> simp [hphase]
    have hnext : (s.afterCycle P).tick.DrainsWithin ps.length :=
      h.afterCycle (s.outputFree_iff.mpr (.inr hready))
    obtain ⟨t, ht, hdone⟩ := ih (s := (s.afterCycle P).tick) (by simp [s.afterCycle_schedule, hs]) hrest hnext
    exact ⟨t, (run_succ_of_step (stepWith_of_no_reset hlegal hrst) ps.length).trans ht, hdone⟩

/-- Settles O55: the first cycle goes to DRAIN and adds at most one byte; the drain is over in time. -/
theorem shutdownCompletes : Obligations.ShutdownCompletes := by
  unfold Obligations.ShutdownCompletes
  intro P s p ps rest hrun hs hlen hstop hpins
  obtain ⟨⟨hrst, -⟩, hrest⟩ := List.forall_mem_cons.mp hpins
  obtain rfl : s.pins = p := State.pins_of_schedule hs
  have hlegal : s.phase ≠ .reserved := by simp [hrun]
  have hphase : (s.afterCycle P).phase = .drain := by
    rw [s.afterCycle_phase, if_pos (s.stops_iff.mpr ⟨hrun, hstop⟩)]
  have hcnt : (s.afterCycle P).bufCnt ≤ s.bufCnt + 1 := by
    have hbalance := State.afterCycle_bufCnt P hlegal
    split at hbalance <;> omega
  have hnext : (s.afterCycle P).tick.DrainsWithin ps.length :=
    .inr ⟨hphase, by rw [hlen]; exact Nat.lt_succ_of_le hcnt⟩
  obtain ⟨t, ht, hdone⟩ := exists_run_done (P := P) (s := (s.afterCycle P).tick) (rest := rest)
    (by simp [s.afterCycle_schedule, hs]) hrest hnext
  rw [hlen] at ht
  exact ⟨t, (run_succ_of_step (stepWith_of_no_reset hlegal hrst) _).trans ht, hdone⟩

end Sys2Proof.Machine
end

section
/-! The operations and the transfers executed alone (41_framer.md R141 to R152), and the instructions a cycle
runs (60_exceptions.md R199). -/

namespace Sys2Proof.Machine

/-- Settles O18: the four operations are the identity, whatever the parameters. -/
theorem waitingOperationsChangeNothing : Obligations.WaitingOperationsChangeNothing := by
  unfold Obligations.WaitingOperationsChangeNothing
  intro effects
  have heffects (P : Params) : effects (execWith P) := fun _ => ⟨rfl, rfl, rfl, rfl⟩
  exact ⟨exec_eq_execWith ▸ heffects defaultParams, heffects⟩

theorem discardWith_eq_next_iff (P : Params) (s t : State) :
    discardWith P s = .next t ↔ 1 ≤ s.bufCnt ∧ t = (s.dropHead 1).countNoise P := by
  unfold discardWith
  simp only [andThen_eq_next_iff, pop_eq_next_iff]
  constructor
  · rintro ⟨u, ⟨hlen, rfl⟩, ht⟩
    exact ⟨hlen, (Host.Outcome.next.inj ht).symm⟩
  · rintro ⟨hlen, rfl⟩
    exact ⟨_, ⟨hlen, rfl⟩, rfl⟩

/-- Settles O19: each pops one byte, which is there, and raises its own counter. -/
theorem headByteOperationsPopOneAndCount : Obligations.HeadByteOperationsPopOneAndCount := by
  unfold Obligations.HeadByteOperationsPopOneAndCount
  intro effects
  have heffects (P : Params) : effects P (execWith P) := by
    intro s b rest hbuf
    have hlen : 1 ≤ s.bufCnt := by simp [State.bufCnt, hbuf]
    have hdrop : s.dropHead 1 = { s with buf := rest } := by simp [State.dropHead, hbuf]
    refine ⟨(discardWith_eq_next_iff P s _).mpr ⟨hlen, ?_⟩,
      (takeRejection_eq_next_iff P .malformedFrame s _).mpr ⟨hlen, ?_⟩,
      (takeRejection_eq_next_iff P .checksumMismatch s _).mpr ⟨hlen, ?_⟩⟩ <;> rw [hdrop] <;> rfl
  exact ⟨exec_eq_execWith ▸ heffects defaultParams, heffects⟩

theorem emitWith_of_window (P : Params) {s : State} {w : Frame} (hwin : window? s.buf = some w) :
    emitWith P s = .next ((s.dropHead 16).load P w) := by
  rw [emitWith, hwin]
  exact (emitFrame_eq_next_iff P w s _).mpr ⟨State.le_bufCnt_of_window hwin, rfl⟩

/-- Settles O20: the window at the head is loaded and popped. -/
theorem emitLoadsTheWindow : Obligations.EmitLoadsTheWindow := by
  unfold Obligations.EmitLoadsTheWindow
  intro effects
  have heffects (P : Params) : effects P (execWith P) := by
    intro s w rest hbuf
    have hwin : window? s.buf = some w := (window?_eq_some_iff _ _).mpr ⟨rest, hbuf⟩
    have hdrop : s.dropHead 16 = { s with buf := rest } := by
      rw [State.dropHead, hbuf, List.drop_left' (by simp)]
    rw [show execWith P .emit s = emitWith P s from rfl, emitWith_of_window P hwin, hdrop]
    rfl
  exact ⟨exec_eq_execWith ▸ heffects defaultParams, heffects⟩

/-- Settles O21: both rows are `finish`, which keeps a length of at most 15 whole in its 4 bits. -/
theorem finishDropsTheResidue : Obligations.FinishDropsTheResidue := by
  unfold Obligations.FinishDropsTheResidue
  intro effects
  have heffects (P : Params) : effects (execWith P) := by
    intro s
    refine ⟨fun hempty => ?_, fun hlen => ⟨BitVec.ofNat 4 s.bufCnt, ?_, rfl⟩⟩
    · have hfinish : s.finish = { s with residueLen := 0#4, phase := .done } := by
        simp [State.finish, State.bufCnt, hempty]
      exact congrArg Host.Outcome.next hfinish
    · exact Nat.mod_eq_of_lt (Nat.lt_succ_of_le hlen)
  exact ⟨exec_eq_execWith ▸ heffects defaultParams, heffects⟩

/-- Settles O22: each transfer tests the condition of its own rule. -/
theorem transfersHaveTheirEffect : Obligations.TransfersHaveTheirEffect := by
  unfold Obligations.TransfersHaveTheirEffect
  intro effects
  have heffects (P : Params) : effects P (execWith P) := by
    intro s
    refine ⟨fun hvalid hrun hroom => ?_, fun hno => ?_, fun hvalid hready => ?_, fun hno => ?_,
      fun hrun hstop => ?_, fun hno => ?_, rfl⟩
    · exact congrArg Host.Outcome.next (if_pos ((s.accepts_iff P).mpr ⟨hvalid, hrun, hroom⟩))
    · refine congrArg Host.Outcome.next (if_neg fun hacc => ?_)
      obtain ⟨hvalid, hrun, hroom⟩ := (s.accepts_iff P).mp hacc
      rcases hno with hno | hno | hno
      · simp [hvalid] at hno
      · exact hno hrun
      · exact absurd hroom (Nat.not_lt.mpr hno)
    · exact congrArg Host.Outcome.next (if_pos (s.fires_iff.mpr ⟨hvalid, hready⟩))
    · refine congrArg Host.Outcome.next (if_neg fun hfires => ?_)
      obtain ⟨hvalid, hready⟩ := s.fires_iff.mp hfires
      simp [hvalid, hready] at hno
    · exact congrArg Host.Outcome.next (if_pos (s.stops_iff.mpr ⟨hrun, hstop⟩))
    · refine congrArg Host.Outcome.next (if_neg fun hstops => ?_)
      obtain ⟨hrun, hstop⟩ := s.stops_iff.mp hstops
      simp [hrun, hstop] at hno
  exact ⟨exec_eq_execWith ▸ heffects defaultParams, heffects⟩

/-! The instructions of a cycle. -/

/-- The instructions of a cycle without reset around its scan operation (R199). -/
def cycleAround (P : Params) (s : State) (i : Instr) : List Instr :=
  selected (s.xsel P) .fire ++ [i] ++ selected (s.xsel P) .accept ++ selected (s.xsel P) .shutdown

section
variable {P : Params} {s : State}

theorem cycleInstrs_of_decodeOpsel (hrst : s.pins.rst = false) {op : Instr}
    (hop : decodeOpsel (s.opsel P.toCodec) = some op) : cycleInstrs P s = some (cycleAround P s op) := by
  have hnoReset : ¬ Instr.reset ∈ transfers (s.xsel P) := by simp [reset_mem_transfers, hrst]
  rw [cycleInstrs, if_neg hnoReset, hop]
  rfl

theorem stepWith_of_decodeOpsel (hrst : s.pins.rst = false) {op : Instr}
    (hop : decodeOpsel (s.opsel P.toCodec) = some op) :
    stepWith P s = andThen (runInstrs (execWith P) (cycleAround P s op) s) fun t => .next t.tick := by
  rw [stepWith, cycleStep, cycleInstrs_of_decodeOpsel hrst hop]

/-- Two operations with the same effect after FIRE make the same cycle. -/
theorem runInstrs_cycleAround_congr (hrst : s.pins.rst = false) {i j : Instr}
    (heq : execWith P i s.fired = execWith P j s.fired) :
    runInstrs (execWith P) (cycleAround P s i) s = runInstrs (execWith P) (cycleAround P s j) s := by
  simp only [cycleAround, runInstrs_append, runInstrs_fire hrst, andThen_next, runInstrs_cons, heq]

/-- Where a valid window is judged the operation is EMIT, which on this buffer is the frame's own instruction
(`emitIsTheFrameInstruction`). -/
theorem stepWith_of_decodeFrame (hrst : s.pins.rst = false) (hscan : s.Scanning)
    (hfree : s.outValid = false ∨ s.pins.outReady = true) {w : Frame} {rest : List Byte}
    (hbuf : s.buf = w.toList ++ rest) {i : Instr} (hdec : decodeFrame P.toCodec w = .instr i) :
    stepWith P s = andThen (runInstrs (execWith P) (cycleAround P s i) s) fun t => .next t.tick := by
  obtain ⟨f, hok, -⟩ := decodeFrame_eq_instr_iff.mp hdec
  have hvalid : resultOf (validate P.toCodec w) = .ok := (resultOf_eq_ok_iff _).mpr ⟨f, hok⟩
  have row : ActRow P.toCodec s .emit :=
    .emit w hscan (State.headIsMarker_of_window hbuf (marker_of_validate hvalid))
      ((window?_eq_some_iff _ _).mpr ⟨rest, hbuf⟩) (s.outputFree_iff.mpr hfree) hvalid
  have hemit : execWith P .emit s.fired = execWith P i s.fired :=
    emitIsTheFrameInstruction.2 P s.fired w rest i (s.fired_buf.trans hbuf) hdec
  rw [stepWith_of_decodeOpsel hrst row.decodeOpsel_eq, runInstrs_cycleAround_congr hrst hemit]

end

/-- Settles O24: RESET alone; the operation that OPSEL decodes to; the frame's instruction in the place of
EMIT. -/
theorem stepRunsTheDecodedInstruction : Obligations.StepRunsTheDecodedInstruction := by
  unfold Obligations.StepRunsTheDecodedInstruction
  intro runs
  have hruns (P : Params) : runs P (execWith P) (stepWith P) :=
    ⟨fun _ hrst => stepWith_of_reset hrst, fun _ _ hrst hop => stepWith_of_decodeOpsel hrst hop,
      fun _ _ _ _ hrst hscan hfree hbuf hdec => stepWith_of_decodeFrame hrst hscan hfree hbuf hdec⟩
  exact ⟨exec_eq_execWith ▸ step_eq_stepWith ▸ hruns defaultParams, hruns⟩

end Sys2Proof.Machine
end

section
/-! Reset and timing (70_reset_and_hazards.md R220 to R233): what reset leaves, when a byte is judged, the
output until it fires, and the input while the consumer is ready. -/

namespace Sys2Proof.Machine

/-- Settles O26: RESET alone is performed, and every register is one of `resetRegisters`; with an empty
buffer every capacity leaves room. -/
theorem resetOverridesEverything : Obligations.ResetOverridesEverything := by
  unfold Obligations.ResetOverridesEverything
  intro P s p ps hs hrst
  obtain rfl : s.pins = p := State.pins_of_schedule hs
  have hroom : 0 < P.bufCap.val := Nat.lt_of_lt_of_le (by decide) P.bufCap.property
  have hready : s.resetRegisters.tick.inReady P = true := by simp [State.inReady, State.bufCnt, hroom]
  exact ⟨_, stepWith_of_reset hrst, rfl, rfl, rfl, rfl, rfl, rfl, rfl, rfl, rfl, rfl, rfl, rfl, hready, rfl⟩

/-! When a byte is judged (R225). -/

section
variable {P : Params} {s : State}

/-- A cycle of RUN goes on in RUN or to DRAIN, and both scan (R151). -/
theorem State.afterCycle_scanning_of_run (hrun : s.phase = .run) : (s.afterCycle P).Scanning := by
  have hfinish := act_ne_finish P.toCodec (s := s) (by simp [hrun]) (by simp [hrun])
  unfold State.Scanning
  rw [s.afterCycle_phase, if_neg hfinish, hrun]
  split <;> simp

/-- A valid frame without its last byte is a residue (R101, R152). -/
theorem isResidue_of_toList_eq_append {c : Codec} {w : Frame} {l : List Byte} {b : Byte}
    (hok : resultOf (validate c w) = .ok) (hw : w.toList = l ++ [b]) : IsResidue l := by
  have hlen : l.length = 15 := by simpa using (congrArg List.length hw).symm
  cases l with
  | nil => simp at hlen
  | cons a rest =>
    rw [toList_eq_cons, marker_of_validate hok] at hw
    obtain ⟨hhead, -⟩ := List.cons.inj hw
    exact .inr ⟨rest, by rw [hhead], (Nat.succ.inj hlen).le⟩

end

/-- Settles O56: without its last byte the frame is a residue, so the first cycle waits and only takes the
byte (O34); the second finds the valid window with the output free (O37). -/
theorem frameIsEmittedTheCycleAfterItsLastByte : Obligations.FrameIsEmittedTheCycleAfterItsLastByte := by
  unfold Obligations.FrameIsEmittedTheCycleAfterItsLastByte
  intro P s p q ps w hrun hs hrst hrst' hoffer hw hok hfree
  obtain rfl : s.pins = p := State.pins_of_schedule hs
  have hresidue : IsResidue s.buf := isResidue_of_toList_eq_append hok hw
  have hacc : s.accepts P = true :=
    (s.accepts_iff P).mpr ⟨hoffer, hrun, hresidue.length_lt.trans_le P.bufCap.property⟩
  obtain ⟨t, ht, hbuf, -, -, -, hframe, -, -, hvalid⟩ := partialWindowWaitsInRun P s hrun hrst hresidue
  obtain rfl : t = (s.afterCycle P).tick :=
    Host.Outcome.next.inj (ht.symm.trans (stepWith_of_no_reset (by simp [hrun]) hrst))
  rw [hacc, if_pos rfl, ← hw] at hbuf
  have hpins : (s.afterCycle P).tick.pins = q :=
    State.pins_of_schedule (ps := ps) (by simp [s.afterCycle_schedule, hs])
  have hfree' : (s.afterCycle P).tick.outValid = false ∨ (s.afterCycle P).tick.pins.outReady = true := by
    rw [hpins, hvalid]
    rcases hfree with h | h | h <;> simp [h]
  obtain ⟨u, hu, hraw, hset, -, hcount, -⟩ :=
    validWindowIsEmitted P (s.afterCycle P).tick w [] (State.afterCycle_scanning_of_run hrun)
      (by rw [hpins, hrst']) (by rw [hbuf, List.append_nil]) hfree' hok
  exact ⟨_, u, ht, hbuf, hframe, hu, hset, hraw, by rw [hcount, hframe]⟩

/-! The output until it fires (R228). -/

/-- A busy output is not loaded (R84, R147). -/
theorem act_ne_emit_of_busy {c : Codec} {s : State} (hlegal : s.phase ≠ .reserved)
    (hbusy : s.outputFree = false) : act c s ≠ .emit := by
  intro hemit
  have row : ActRow c s (act c s) := actRow_act c hlegal
  rw [hemit] at row
  cases row with
  | emit w hscan hhead hwin hfree => simp [hbusy] at hfree

/-- The frame ports read the output register alone (R39). -/
theorem State.outputs_frame (P : Params) (s : State) :
    (s.outputs P).frame = if s.outValid then some (pack s.outRaw, fieldsOf s.outRaw) else none := rfl

/-- Settles O57: a frame that is not taken keeps the output busy, so neither FIRE nor EMIT touches it; one
that is taken is delivered by FIRE. -/
theorem pendingFrameIsStableUntilItFires : Obligations.PendingFrameIsStableUntilItFires := by
  unfold Obligations.PendingFrameIsStableUntilItFires
  intro P s hlegal hrst
  refine ⟨fun hvalid hready => ?_, fun hvalid hready => ?_, fun hvalid => ?_, fun hvalid => ?_⟩
  · have hemit : act P.toCodec s ≠ .emit :=
      act_ne_emit_of_busy hlegal (s.outputFree_eq_false_iff.mpr ⟨hvalid, hready⟩)
    have hkept : (s.afterCycle P).tick.outValid = true := by
      simp [s.afterCycle_outValid, hemit, hvalid, hready]
    have hraw : (s.afterCycle P).tick.outRaw = s.outRaw := by simp [s.afterCycle_outRaw, hemit]
    have htaken : (s.afterCycle P).tick.taken = s.taken := by
      simp [s.afterCycle_taken, State.fires, hready]
    refine ⟨_, stepWith_of_no_reset hlegal hrst, hkept, hraw, htaken, ?_⟩
    rw [State.outputs_frame, State.outputs_frame, hkept, hvalid, hraw]
  · refine ⟨_, stepWith_of_no_reset hlegal hrst, ?_⟩
    rw [State.tick_taken, s.afterCycle_taken, if_pos (s.fires_iff.mpr ⟨hvalid, hready⟩)]
  · rw [s.outputs_frame, if_pos hvalid]
  · rw [s.outputs_frame, hvalid, if_neg Bool.false_ne_true]

/-! The input while the consumer is ready (R226, R233). -/

section
variable {P : Params} {s : State}

/-- With the output free, a scan of 16 bytes or more pops: there is no residue to wait with, and no HOLD. -/
theorem ActRow.pops_of_full {c : Codec} {i : Instr} (row : ActRow c s i) (hscan : s.Scanning)
    (hfree : s.outputFree = true) (hfull : 16 ≤ s.bufCnt) : 1 ≤ popCount s i := by
  cases row with
  | none hphase => rcases hscan with h | h <;> simp [hphase] at h
  | idle hphase hbuf | finishEmpty hphase hbuf => simp [State.bufCnt, hbuf] at hfull
  | wait hphase hhead hwin | finishPartial hphase hhead hwin =>
    exact absurd hfull (Nat.not_le.mpr (State.bufCnt_lt_of_no_window hwin))
  | hold w hscan hhead hwin hbusy => simp [hfree] at hbusy
  | discard | emit | rejectMalformed | rejectChecksum => simp [popCount]

/-- With the output free, a byte comes into a full window only as one goes. -/
theorem State.afterCycle_bufCnt_le_of_free (hlegal : s.phase ≠ .reserved) (hfree : s.outputFree = true)
    (hcnt : s.bufCnt ≤ 16) : (s.afterCycle P).bufCnt ≤ 16 := by
  have hbalance := State.afterCycle_bufCnt P hlegal
  split at hbalance
  next hacc =>
    obtain ⟨-, hrun, -⟩ := (s.accepts_iff P).mp hacc
    have hpop := (actRow_act P.toCodec hlegal).pops_of_full (.inl hrun) hfree
    omega
  next => omega

end

/-- Settles O58: a ready consumer keeps the output free, so the buffer stays within one window, below a
capacity of 17. -/
theorem readyConsumerNeverStallsTheInput : Obligations.ReadyConsumerNeverStallsTheInput := by
  unfold Obligations.ReadyConsumerNeverStallsTheInput
  intro P s hlegal hrst hready hlen
  have hcnt : (s.afterCycle P).tick.bufCnt ≤ 16 :=
    State.afterCycle_bufCnt_le_of_free hlegal (s.outputFree_iff.mpr (.inr hready)) hlen
  refine ⟨_, stepWith_of_no_reset hlegal hrst, hcnt, fun hcap hrun => ?_⟩
  have hroom : (s.afterCycle P).tick.bufCnt < P.bufCap.val := Nat.lt_of_le_of_lt hcnt hcap
  simp only [State.inReady, hrun, hroom, beq_self_eq_true, decide_true, Bool.and_self]

end Sys2Proof.Machine
end
